-- ==== Sys2Proof/Word.lean ====
section
/-!
DEFINITION. The word types of the CORE (spec/00_scope.md R8, R11): bytes of packets, 16-bit ring sample words,
32-bit configuration fields, 64-bit registers and binary64 bit patterns.
-/
namespace Sys2Proof

/-- One byte of a packet or of a register access (R11, R12). -/
abbrev Byte := BitVec 8

/-- A ring sample word, u16 (R8). -/
abbrev Word16 := BitVec 16

/-- A ParserConfig field, a captured length, an on-wire length: u32 (R8, R117). -/
abbrev Word32 := BitVec 32

/-- A register, u64 (R8). -/
abbrev Word64 := BitVec 64

/-- A binary64 value as its bit pattern: bit 63 sign, [62:52] exponent, [51:0] fraction (R13, R116). -/
abbrev F64 := BitVec 64

end Sys2Proof
end

