-- ==== Sys2Proof/Config.lean ====
section
/-!
DEFINITION. The parameters of an implementation (spec/00_scope.md R7) and the values the spec leaves open.
The parameters are plain data and stand in the machine's state, so that a statement about every state holds for every
implementation (log 1). The free values are opaque: nothing can be proved of them (logs 2, 8, 9, 10, 12, 26).
-/
namespace Sys2Proof

/-- HPF_Y0, the initial output of the high-pass filter, left open by the source (R7, R287). -/
inductive HpfY0 where
  | series0
  | zero
deriving DecidableEq, Repr

/-- The implementation parameters of R7. `expTable` is part of the parameter EXP: the arguments on which this
implementation's exponential is known, each with its value; every other argument has the free value
`Config.expFree` (log 2). -/
structure Params where
  /-- C, RING_CAPACITY in frames. -/
  capacity : Nat
  /-- MAX_SPF, the largest samples_per_frame. -/
  maxSpf : Nat
  /-- MAX_BINS, the length of a series array. -/
  maxBins : Nat
  /-- NUM_READERS, the number of reader ports. -/
  numReaders : Nat
  /-- MAX_CAPLEN, the largest captured length the ingress port accepts. -/
  maxCaplen : Nat
  /-- HPF_PRESENT. -/
  hpfPresent : Bool
  /-- HPF_Y0. -/
  hpfY0 : HpfY0
  /-- Known values of EXP. -/
  expTable : List (F64 × F64)
deriving DecidableEq, Repr

/-- The constraints R7 puts on the parameters. -/
abbrev Params.valid (P : Params) : Prop :=
  1 ≤ P.capacity ∧ P.capacity ≤ 2 ^ 32 ∧ 1024 ≤ P.maxSpf ∧ P.maxSpf ≤ 2 ^ 16 ∧
  1 ≤ P.maxBins ∧ P.maxBins ≤ 32768 ∧ 1 ≤ P.numReaders ∧ P.numReaders ≤ 255 ∧
  1341 ≤ P.maxCaplen ∧ P.maxCaplen ≤ 2 ^ 32 - 1

/-- The parameters `State.reset` is written with. DESIGN CHOICE (log 1): the spec gives no values; these are within
R7's constraints. HPF_PRESENT is false, the default of R4. No statement rests on them. -/
def Config.resetParams : Params where
  capacity := 4
  maxSpf := 1024
  maxBins := 16
  numReaders := 2
  maxCaplen := 1349
  hpfPresent := false
  hpfY0 := .series0
  expTable := []

/-- EXP outside `Params.expTable`: a total function on binary64 of which nothing is known (R7, log 2). -/
opaque Config.expFree : F64 → F64

/-- The content of a ring word no RingWrite has reached since the last rebuild, one value for each draw (R44, R92,
log 8). -/
opaque Config.ringFree : Nat → Word16

/-- The content of a series entry no write has reached since reset: reset number, port, array code, entry (R60,
log 9). It stays the same until the entry is written. -/
opaque Config.seriesFree : Nat → Nat → Nat → Nat → F64

/-- What a host read of series memory returns while the port is busy, one value for each draw (R83, log 10). -/
opaque Config.busyReadFree : Nat → F64

/-- The sign of an entry of X whose exact value, ws·n/d taken negative, is not 0 and rounds to a zero: R265 and R266 name
+0.0 for an exact zero only. A function of ws, n and d (log 26). -/
opaque Config.underflowSign : F64 → Nat → Nat → Bool

/-- The sign and payload of a NaN that an operation produced, one value for each draw (R13, log 12). -/
opaque Config.nanFree : Nat → F64

end Sys2Proof
end

