-- ==== Sys2Proof/Syntax.lean ====
section
/-!
DEFINITION. The instructions of the CORE: one constructor per row of spec/opcode_table.json
(spec/30_encoding.md R110, R121, R122, R117).
-/
namespace Sys2Proof

/-- The series array a filter works on, the ARR field of a port command word (R120). -/
inductive SeriesArr where
  | x
  | ymin
  | ymax
  | mean
deriving DecidableEq, Repr

/-- An operation of the CORE. The three CTRL commands have no operand in their word (R114). A port command carries
the index `p` of the reader port whose PCMD register its word was written to (R112, R115); its other operands are the
port's PARG registers (R116). An ingress event carries the fields its KIND uses (R117). -/
inductive Instr where
  | start
  | stop
  | cfgCommit
  | snapshot (p : Nat)
  | getSample (p : Nat)
  | envelope (p : Nat)
  | ema (p : Nat) (arr : SeriesArr)
  | sma (p : Nat) (arr : SeriesArr)
  | hpf (p : Nat) (arr : SeriesArr)
  | ingressPacket (tag : Word16) (caplen wirelen : Word32) (data : List Byte)
  | ingressTimeout
  | ingressSrcError
  | ingressKind3
deriving DecidableEq, Repr

end Sys2Proof
end

