-- ==== Sys2Proof/WellFormed.lean ====
section
/-!
DEFINITION. Which instructions an encoding can give (spec/00_scope.md R7, spec/30_encoding.md R112, R117), and which of
them an implementation with given parameters can receive.
-/
namespace Sys2Proof

/-- The reader port a port command was written to. -/
def Instr.port? : Instr → Option Nat
  | .snapshot p => some p
  | .getSample p => some p
  | .envelope p => some p
  | .ema p _ => some p
  | .sma p _ => some p
  | .hpf p _ => some p
  | .start => none
  | .stop => none
  | .cfgCommit => none
  | .ingressPacket _ _ _ _ => none
  | .ingressTimeout => none
  | .ingressSrcError => none
  | .ingressKind3 => none

/-- A port command names a port some implementation can have (NUM_READERS ≤ 255, R7), and a packet carries exactly
CAPLEN bytes (R117: "DATA: CAPLEN bytes"). -/
def Instr.wf : Instr → Bool
  | .snapshot p => decide (p < 255)
  | .getSample p => decide (p < 255)
  | .envelope p => decide (p < 255)
  | .ema p _ => decide (p < 255)
  | .sma p _ => decide (p < 255)
  | .hpf p _ => decide (p < 255)
  | .ingressPacket _ caplen _ data => decide (data.length = caplen.toNat)
  | .start => true
  | .stop => true
  | .cfgCommit => true
  | .ingressTimeout => true
  | .ingressSrcError => true
  | .ingressKind3 => true

/-- The instruction is well formed and names a port that exists under the parameters (R112: port blocks with
p ≥ NUM_READERS are unmapped). -/
def Instr.wfFor (P : Params) (i : Instr) : Bool :=
  i.wf && (match i.port? with
    | some p => decide (p < P.numReaders)
    | none => true)

end Sys2Proof
end

