-- ==== Sys2Proof/Decode.lean ====
section
/-!
DEFINITION. Decoding of the three command spaces (spec/30_encoding.md R110): CTRL words (R114, R121), port words
(R115, R122) and ingress transactions (R117), and the encoder written from the same rules.
-/
namespace Sys2Proof

/-- The command spaces of R110. A port word's space names the port whose PCMD register it was written to. -/
inductive Space where
  | ctrl
  | port (p : Nat)
  | ingress
deriving DecidableEq, Repr

/-- Why the bytes of a transaction are no instruction. -/
inductive DecodeError where
  /-- A command register access is 8 bytes (R82). -/
  | wrongLength
  /-- Reserved bits of a command word are not all 0 (R114, R115). -/
  | reservedBits
  /-- OP is in no opcode map (R121, R122). -/
  | reservedOpcode
  /-- ARR is not 0 for an opcode that does not use it (R115). -/
  | arrNotZero
  /-- An ingress transaction shorter than the header of R117. -/
  | shortHeader
  /-- A PACKET transaction that does not carry exactly CAPLEN bytes (R117). -/
  | dataLength
deriving DecidableEq, Repr

/-- The `len` low bytes of a number, least significant first: the byte order of registers (R84). -/
def bytesLE : Nat → Nat → List Byte
  | 0, _ => []
  | len + 1, n => BitVec.ofNat 8 n :: bytesLE len (n / 256)

/-- The number whose bytes, least significant first, these are (R84). -/
def natLE : List Byte → Nat
  | [] => 0
  | b :: bs => b.toNat + 256 * natLE bs

/-- The array an ARR field selects (R120). -/
def SeriesArr.ofCode : Nat → SeriesArr
  | 0 => .x
  | 1 => .ymin
  | 2 => .ymax
  | _ => .mean

/-- The ARR field of an array (R120). -/
def SeriesArr.code : SeriesArr → Nat
  | .x => 0
  | .ymin => 1
  | .ymax => 2
  | .mean => 3

/-- A CTRL command word (R114, R121). -/
def decodeCtrl (w : Nat) : Except DecodeError Instr :=
  if w / 2 ^ 8 ≠ 0 then .error .reservedBits
  else if w = 0x01 then .ok .start
  else if w = 0x02 then .ok .stop
  else if w = 0x03 then .ok .cfgCommit
  else .error .reservedOpcode

/-- The opcode of a port word that uses no ARR (R115, R122). -/
def decodePortPlain (op : Nat) (p : Nat) : Option Instr :=
  if op = 0x01 then some (.snapshot p)
  else if op = 0x02 then some (.getSample p)
  else if op = 0x03 then some (.envelope p)
  else none

/-- The opcode of a port word that uses ARR (R115, R122). -/
def decodePortArr (op : Nat) (arr : SeriesArr) (p : Nat) : Option Instr :=
  if op = 0x10 then some (.ema p arr)
  else if op = 0x11 then some (.sma p arr)
  else if op = 0x12 then some (.hpf p arr)
  else none

/-- A port command word written to PCMD(p): OP in [7:0], ARR in [9:8], the rest reserved (R115, R122). -/
def decodePort (p w : Nat) : Except DecodeError Instr :=
  if w / 2 ^ 10 ≠ 0 then .error .reservedBits
  else
    match decodePortArr (w % 2 ^ 8) (SeriesArr.ofCode (w / 2 ^ 8 % 4)) p with
    | some i => .ok i
    | none =>
      match decodePortPlain (w % 2 ^ 8) p with
      | some i => if w / 2 ^ 8 % 4 ≠ 0 then .error .arrNotZero else .ok i
      | none => .error .reservedOpcode

/-- How many bytes the header of an ingress transaction takes: KIND, TAG, CAPLEN and WIRELEN are 2 + 16 + 32 + 32 =
82 bits (R117). -/
def ingressHeaderBytes : Nat := 11

/-- An ingress transaction. The header is one little-endian number with KIND in bits [1:0], TAG in [17:2], CAPLEN in
[49:18] and WIRELEN in [81:50], the fields of R117 in its order; bits [87:82] are ignored; DATA follows.
DESIGN CHOICE (log 6): R117 gives the fields and their widths and no layout. Fields a kind does not use are ignored
(R117). -/
def decodeIngress (bs : List Byte) : Except DecodeError Instr :=
  if bs.length < ingressHeaderBytes then .error .shortHeader
  else
    let h := natLE (bs.take ingressHeaderBytes)
    if h % 4 = 0 then
      if (bs.drop ingressHeaderBytes).length = h / 2 ^ 18 % 2 ^ 32 then
        .ok (.ingressPacket (BitVec.ofNat 16 (h / 2 ^ 2)) (BitVec.ofNat 32 (h / 2 ^ 18))
          (BitVec.ofNat 32 (h / 2 ^ 50)) (bs.drop ingressHeaderBytes))
      else .error .dataLength
    else if h % 4 = 1 then .ok .ingressTimeout
    else if h % 4 = 2 then .ok .ingressSrcError
    else .ok .ingressKind3

/-- The instruction that the bytes of a transaction in a command space stand for, or why they are none (R110, R123). -/
def decode (sp : Space) (bs : List Byte) : Except DecodeError Instr :=
  match sp with
  | .ctrl => if bs.length ≠ 8 then .error .wrongLength else decodeCtrl (natLE bs)
  | .port p => if bs.length ≠ 8 then .error .wrongLength else decodePort p (natLE bs)
  | .ingress => decodeIngress bs

/-- The command space an instruction arrives in (R110). -/
def Instr.space : Instr → Space
  | .start => .ctrl
  | .stop => .ctrl
  | .cfgCommit => .ctrl
  | .snapshot p => .port p
  | .getSample p => .port p
  | .envelope p => .port p
  | .ema p _ => .port p
  | .sma p _ => .port p
  | .hpf p _ => .port p
  | .ingressPacket _ _ _ _ => .ingress
  | .ingressTimeout => .ingress
  | .ingressSrcError => .ingress
  | .ingressKind3 => .ingress

/-- The port word of an opcode and an ARR field (R115). -/
def portWord (op arr : Nat) : Nat := op + 2 ^ 8 * arr

/-- The header number of an ingress transaction (R117, log 6). -/
def ingressHeader (kind tag caplen wirelen : Nat) : Nat :=
  kind + 2 ^ 2 * tag + 2 ^ 18 * caplen + 2 ^ 50 * wirelen

/-- The bytes of an instruction, written from R114, R115, R117, R120, R121 and R122. -/
def encode : Instr → List Byte
  | .start => bytesLE 8 0x01
  | .stop => bytesLE 8 0x02
  | .cfgCommit => bytesLE 8 0x03
  | .snapshot _ => bytesLE 8 (portWord 0x01 0)
  | .getSample _ => bytesLE 8 (portWord 0x02 0)
  | .envelope _ => bytesLE 8 (portWord 0x03 0)
  | .ema _ arr => bytesLE 8 (portWord 0x10 arr.code)
  | .sma _ arr => bytesLE 8 (portWord 0x11 arr.code)
  | .hpf _ arr => bytesLE 8 (portWord 0x12 arr.code)
  | .ingressPacket tag caplen wirelen data =>
    bytesLE ingressHeaderBytes (ingressHeader 0 tag.toNat caplen.toNat wirelen.toNat) ++ data
  | .ingressTimeout => bytesLE ingressHeaderBytes (ingressHeader 1 0 0 0)
  | .ingressSrcError => bytesLE ingressHeaderBytes (ingressHeader 2 0 0 0)
  | .ingressKind3 => bytesLE ingressHeaderBytes (ingressHeader 3 0 0 0)

/-- The bytes of the ingress transaction whose header bits below `nbits` are `w` and whose other bits are 0, DATA
included. -/
def ingressTableBytes (w : Nat) : List Byte :=
  bytesLE ingressHeaderBytes w ++ List.replicate (w / 2 ^ 18 % 2 ^ 32) 0

/-- The space a table word of 64 bits is read in: CTRL where it is a CTRL command, otherwise port 0. The words 0x01,
0x02 and 0x03 are commands of both spaces, and only the address they are written to tells them apart (R110); the
CTRL rows stand first in the table. DESIGN CHOICE (log 5). -/
def tableSpace (w : Nat) : Space :=
  match decode .ctrl (bytesLE 8 w) with
  | .ok _ => .ctrl
  | .error _ => .port 0

/-- The instruction the decoder reads from a table word: 64-bit rows are command words, shorter rows are ingress
headers (R117). -/
def decodeTableWord (nbits w : Nat) : Option Instr :=
  if nbits < 64 then (decode .ingress (ingressTableBytes w)).toOption
  else (decode (tableSpace w) (bytesLE 8 w)).toOption

end Sys2Proof
end

