-- ==== Sys2Proof/Machine/Float.lean ====
section
/-!
DEFINITION. IEEE 754 binary64 under round to nearest even (spec/00_scope.md R13), on bit patterns and by exact natural
number arithmetic. Every finite value is a whole number of units of 2^-1074, so an exact result is a fraction of such
units and is rounded once by `F64.round`.

A result that is not a number is the one pattern `F64.nan` while a computation runs; when it is stored its sign and
payload become a free value (`F64.settle`, log 12).
-/
namespace Sys2Proof
namespace F64

/-- Bit 63. -/
def sign (a : F64) : Bool := a.getLsbD 63

/-- Bits [62:0], the magnitude's pattern; it grows with the magnitude. -/
def mag (a : F64) : Nat := a.toNat % 2 ^ 63

/-- The pattern of +infinity. -/
def infMag : Nat := 0x7FF * 2 ^ 52

def isNaN (a : F64) : Bool := decide (infMag < mag a)

def isInf (a : F64) : Bool := decide (mag a = infMag)

/-- Neither NaN nor infinite (R260). -/
def isFinite (a : F64) : Bool := decide (mag a < infMag)

def isZero (a : F64) : Bool := decide (mag a = 0)

/-- How many units of 2^-1074 one is. -/
def unitScale : Nat := 2 ^ 1074

/-- The magnitude of a finite value in units of 2^-1074. -/
def units (a : F64) : Nat :=
  let e := mag a / 2 ^ 52
  if e = 0 then mag a else (2 ^ 52 + mag a % 2 ^ 52) * 2 ^ (e - 1)

/-- A bit pattern from a sign and a magnitude pattern. -/
def ofMag (s : Bool) (m : Nat) : F64 := BitVec.ofNat 64 ((if s then 2 ^ 63 else 0) + m)

/-- The NaN a running computation holds. -/
def nan : F64 := 0x7FF8000000000000

def inf (s : Bool) : F64 := ofMag s infMag

def zero (s : Bool) : F64 := ofMag s 0

/-- The pattern of 1.0. -/
def one : F64 := 0x3FF0000000000000

/-- A quotient rounded to a whole number, to nearest, ties to even. -/
def roundQuot (n d : Nat) : Nat :=
  let q := n / d
  let r := n % d
  if d < 2 * r ∨ (2 * r = d ∧ q % 2 = 1) then q + 1 else q

/-- The magnitude pattern nearest to `n / d` units, ties to even; it saturates at infinity, and below 2^52 units it is
subnormal (R13: "overflow to ±infinity and gradual underflow"). With `k` the exponent step of the result, the rounded
significand is added to `k` steps of 2^52, so that a carry out of it moves the exponent. -/
def roundMag (n d : Nat) : Nat :=
  let k := Nat.log2 (n / d) - 52
  min (k * 2 ^ 52 + roundQuot n (d * 2 ^ k)) infMag

/-- RNE of the exact value ±n/d units of 2^-1074 (R13). -/
def round (s : Bool) (n d : Nat) : F64 := ofMag s (roundMag n d)

/-- RNE of the exact rational ±n/d. -/
def ofRat (s : Bool) (n d : Nat) : F64 := round s (n * unitScale) d

/-- f64(n) (R13). -/
def ofNat (n : Nat) : F64 := ofRat false n 1

/-- `-f a`: flips the sign bit (R13). -/
def neg (a : F64) : F64 := a ^^^ (0x8000000000000000 : F64)

/-- The finite value as a signed whole number of units. -/
def signedUnits (a : F64) : Int := if sign a then -(units a : Int) else (units a : Int)

/-- The sum of two finite values. An exact zero sum is +0.0 unless both are negative zeros. -/
def addFinite (a b : F64) : F64 :=
  let t := signedUnits a + signedUnits b
  if t = 0 then zero (sign a && sign b && isZero a && isZero b)
  else round (decide (t < 0)) t.natAbs 1

/-- `a +f b` (R13). -/
def add (a b : F64) : F64 :=
  if isNaN a || isNaN b then nan
  else if isInf a then (if isInf b && sign a != sign b then nan else inf (sign a))
  else if isInf b then inf (sign b)
  else addFinite a b

/-- `a -f b` (R13). -/
def sub (a b : F64) : F64 := if isNaN a || isNaN b then nan else add a (neg b)

/-- `a *f b` (R13). -/
def mul (a b : F64) : F64 :=
  let s := sign a != sign b
  if isNaN a || isNaN b then nan
  else if isInf a || isInf b then (if isZero a || isZero b then nan else inf s)
  else round s (units a * units b) unitScale

/-- `a /f b` (R13). -/
def div (a b : F64) : F64 :=
  let s := sign a != sign b
  if isNaN a || isNaN b then nan
  else if isInf a then (if isInf b then nan else inf s)
  else if isInf b then zero s
  else if isZero b then (if isZero a then nan else inf s)
  else round s (units a * unitScale) (units b)

/-- The place of a non-NaN value in the order of the reals; the two zeros share it. -/
def key (a : F64) : Int := if sign a then -(mag a : Int) else (mag a : Int)

/-- `a < b`, false whenever an operand is NaN (R13). -/
def lt (a b : F64) : Bool := !isNaN a && !isNaN b && decide (key a < key b)

/-- `a <= b`, false whenever an operand is NaN (R13). -/
def le (a b : F64) : Bool := !isNaN a && !isNaN b && decide (key a ≤ key b)

/-- MAXF(a, b) = (a < b) ? b : a (R13, R280). -/
def maxf (a b : F64) : F64 := if lt a b then b else a

/-- What is stored for a computed value: the value itself, except that a NaN gets a free sign and payload (it stays a
quiet NaN). `k` is the number of the draw (R13, log 12). -/
def settle (k : Nat) (v : F64) : F64 := if isNaN v then Config.nanFree k ||| nan else v

end F64

/-- EXP, the exponential parameter (R7): the parameter table's value where it lists the argument, a free value
elsewhere (log 2). -/
def Params.exp (P : Params) (a : F64) : F64 :=
  match P.expTable.find? (fun e => e.1 == a) with
  | some e => e.2
  | none => Config.expFree a

end Sys2Proof
end

