-- ==== Sys2Proof/Machine/State.lean ====
section
/-!
DEFINITION. The state of the CORE (spec/10_state.md R30 to R61) as plain data, and the state after reset
(spec/70_reset_and_hazards.md R330). INVENTORY.md, heading State, lists every element with its rule.
-/
namespace Sys2Proof.Machine

/-- Sparse contents of a storage of `n`-bit cells: (address, value) pairs at strictly rising addresses. An address
that is not listed has not been written and holds no value of the model's choosing: what a read of it gives is a free
value (logs 8, 9). -/
abbrev Memory (n : Nat) := List (Nat × BitVec n)

/-- The command result codes of R302; no other code is ever written. -/
inductive ResultCode where
  | ok
  | errOpcode
  | errState
  | errPortBusy
  | errFeature
  | cfgBadPackMode
  | cfgBadSplit
  | cfgBadSpf
  | cfgBadBps
  | cfgBadGeometry
  | errIndex
  | errChannel
  | errBins
  | errWindow
  | errLength
deriving DecidableEq, Repr

/-- The drop reasons of R303; no other code is ever written. -/
inductive DropReason where
  | linkUnsupported
  | linkTruncated
  | notIpv4
  | ipTruncated
  | ipVersion
  | ipIhl
  | notUdp
  | udpLength
  | lengthMismatch
  | unpack
  | oversize
  | udpTruncated
deriving DecidableEq, Repr

/-- A ParserConfig: the seven u32 fields of R35 and R36, in the order of the CFG registers. -/
structure ParserConfig where
  frameSize : Word32
  header : Word32
  payload : Word32
  tail : Word32
  bps : Word32
  spf : Word32
  pack : Word32
deriving DecidableEq, Repr

/-- The default geometry (R35). -/
def ParserConfig.default : ParserConfig where
  frameSize := 1299
  header := 8
  payload := 1280
  tail := 11
  bps := 10
  spf := 1024
  pack := 0

/-- An ingress packet: link-type tag, captured length, on-wire length and the captured bytes (R117, R41). -/
structure Packet where
  tag : Word16
  caplen : Word32
  wirelen : Word32
  data : List Byte
deriving DecidableEq, Repr

/-- How far PUBLISH has got (R209, R211, R240, R241): the two counter updates, the read of W, the word writes with
`w` the writer-private counter (R43) and `ch` the index of the next sample word (R41; at `ch` = spf the next step is
the publish), and the return to RECEIVE (log 14). -/
inductive PubStage where
  | countFrame
  | countBytes
  | loadW
  | write (w : Word64) (ch : Nat)
  | finish
deriving DecidableEq, Repr

/-- The capture engine: CSTATE (R39) is the constructor, and the packet context of R41 is its arguments, each present
exactly in the states where R41 has it valid (log 20). -/
inductive Engine where
  | stopped
  | receive
  | demux (k : Packet)
  | lengthCheck (k : Packet) (off len : Nat)
  | unpack (k : Packet) (off len : Nat)
  | publish (k : Packet) (frame : List Word16) (stage : PubStage)
  | drop (k : Packet) (reason : DropReason)
deriving DecidableEq, Repr

/-- The working variables of an ENVELOPE in flight (R59, R260): the span, the bin and the frame index of the next ring
read, and the minimum, maximum and exact sum over the frames of the bin read so far (`none` before the first, R260's
+inf and −inf). -/
structure Scan where
  span : Nat
  bin : Nat
  frame : Nat
  minMax : Option (Nat × Nat)
  sum : Nat
deriving DecidableEq, Repr

/-- How far a port command has got since its acceptance (R59, R269). -/
inductive Work where
  | accepted
  | scanning (sc : Scan)
deriving DecidableEq, Repr

/-- The command a port executes: the latched opcode and array field of PCMD's word, the latched operands, and the
working variables (R59, R246). -/
structure Command where
  op : BitVec 8
  arr : BitVec 2
  a0 : Word64
  a1 : Word64
  a2 : Word64
  a3 : Word64
  work : Work
deriving DecidableEq, Repr

/-- A reader port (R53 to R60). PHASE is EXEC, and PSTATUS.BUSY is 1, exactly when `cmd` is present (R59, log 20).
`past` is the model's own (log 11): the value each overwritten ring word held before a RingWrite since the port's last
SNAPSHOT, newest first. -/
structure Port where
  done : Bool
  err : Bool
  overrun : Bool
  result : ResultCode
  snap : Word64
  arg0 : Word64
  arg1 : Word64
  arg2 : Word64
  arg3 : Word64
  sample : Word64
  lastBins : Word64
  cmd : Option Command
  x : Memory 64
  ymin : Memory 64
  ymax : Memory 64
  mean : Memory 64
  past : List (Nat × Option Word16)
deriving DecidableEq, Repr

/-- A host bus access (R14, R82); `size` is in bytes, and a write of 8 bytes carries `data`. -/
inductive HostAccess where
  | read (addr : Word32) (size : Nat)
  | write (addr : Word32) (size : Nat) (data : Word64)
deriving DecidableEq, Repr

/-- One agent step to come (R9, R10, log 3). `pick` settles a choice the spec leaves open in that step: which of the
values R92 or R95 allows a read returns (logs 11, 13). -/
inductive Action where
  /-- The host makes one register access. -/
  | host (acc : HostAccess) (pick : Nat)
  /-- The capture source offers the ingress transaction with these bytes. -/
  | offer (bytes : List Byte)
  /-- The capture engine takes its next step. -/
  | engine
  /-- Reader port `p` takes its next step. -/
  | port (p : Nat) (pick : Nat)
  /-- Reset is asserted (R330). -/
  | reset
deriving DecidableEq, Repr

/-- The response of a host access (R82, R306): the data of a read (0 for a write), or a bus error, with which a read
returns 0. -/
inductive BusResp where
  | data (v : Word64)
  | busError
deriving DecidableEq, Repr

/-- The state of the CORE (R30) and the model's own fields (logs 3, 9, 10, 11, 13, 15). `framesSeen` and `bytesSeen` say
that a host read has seen the packet being published counted, so that no later read misses it (R46, R47, log 13). -/
structure State where
  params : Params
  stopPending : Bool
  srcError : Bool
  ctrlResult : ResultCode
  grace : Bool
  staged : ParserConfig
  active : ParserConfig
  engine : Engine
  wcount : Word64
  ring : Memory 16
  framesReceived : Word64
  bytesReceived : Word64
  framesDropped : Word64
  dropReason : Option DropReason
  irqStatus : BitVec 2
  irqEnable : BitVec 2
  ports : List Port
  schedule : List Action
  pick : Nat
  draws : Nat
  seriesSeed : Nat
  framesSeen : Bool
  bytesSeen : Bool
  busResp : BusResp
deriving DecidableEq, Repr

/-- Why the machine stops with a fault. -/
inductive Fault where
  /-- W_OVERFLOW (R308), raised by an append that finds W = 2^64 − 1 (R240). Safe: the spec names it, and the model
  takes no further step. -/
  | wOverflow
deriving DecidableEq, Repr

/-- Why there is no meaning for what a step is asked to do. -/
inductive Refusal where
  /-- Raised by an arm of `exec` for an instruction that has no meaning yet; no arm of this model raises it. Safe. -/
  | notModelled (mnemonic : String)
  /-- Raised by a step whose offered bytes are no ingress transaction of R117 (no header, or a PACKET whose DATA is
  not CAPLEN bytes). Safe: no capture source that keeps R117 offers them (log 16). -/
  | malformedIngress
deriving DecidableEq, Repr

/-- A reader port after reset (R330). Its series memory is unspecified, so nothing is listed (log 9). -/
def Port.reset : Port where
  done := false
  err := false
  overrun := false
  result := .ok
  snap := 0
  arg0 := 0
  arg1 := 0
  arg2 := 0
  arg3 := 0
  sample := 0
  lastBins := 0
  cmd := none
  x := []
  ymin := []
  ymax := []
  mean := []
  past := []

/-- The state after reset for given parameters (R330: "No state survives reset except the parameters"). Nothing is
scheduled (log 3), and the model's own fields are 0 (logs 9, 10, 11, 13, 15). -/
def State.resetWith (P : Params) : State where
  params := P
  stopPending := false
  srcError := false
  ctrlResult := .ok
  grace := false
  staged := .default
  active := .default
  engine := .stopped
  wcount := 0
  ring := []
  framesReceived := 0
  bytesReceived := 0
  framesDropped := 0
  dropReason := none
  irqStatus := 0
  irqEnable := 0
  ports := List.replicate P.numReaders Port.reset
  schedule := []
  pick := 0
  draws := 0
  seriesSeed := 0
  framesSeen := false
  bytesSeen := false
  busResp := .data 0

/-- The machine right after reset, with the parameters of log 1. -/
def State.reset : State := State.resetWith Config.resetParams

end Sys2Proof.Machine
end

