-- ==== Sys2Proof/Machine/Ops.lean ====
section
/-!
DEFINITION. The named operations over storage, ports and status that the meanings share: sparse storage, RingRead and
RingWrite (spec/20_memory.md R87 to R93), series entries (R60, R83), the port protocol (spec/44_ring.md R246) and the
recording of errors (spec/60_exceptions.md R300, R301, R305, R307). The CORE has no traps (R301): taking an error is the
write of its record, and these are the only operations that write one.
-/
namespace Sys2Proof.Machine

/-- The outcome of a step or of an instruction. -/
abbrev Result := Host.Outcome State Fault Refusal

/-! ### Sparse storage -/

/-- The canonical form of a storage: addresses strictly rising. Every listed entry holds a written value, and an
unlisted address reads as `none`, so no entry equals what an unlisted address reads as. -/
abbrev Memory.wf {n : Nat} (m : Memory n) : Prop := m.Pairwise (fun x y => x.1 < y.1)

/-- The value written last at an address, `none` where nothing has been written. -/
def Memory.read {n : Nat} : Memory n → Nat → Option (BitVec n)
  | [], _ => none
  | (b, v) :: m, a => if a = b then some v else Memory.read m a

/-- Writes one cell and keeps the addresses rising. -/
def Memory.write {n : Nat} : Memory n → Nat → BitVec n → Memory n
  | [], a, v => [(a, v)]
  | (b, u) :: m, a, v =>
    if a < b then (a, v) :: (b, u) :: m
    else if a = b then (a, v) :: m
    else (b, u) :: Memory.write m a v

/-- Writes a list of values to consecutive cells from `k` on. -/
def Memory.writeFrom {n : Nat} : Memory n → Nat → List (BitVec n) → Memory n
  | m, _, [] => m
  | m, k, v :: vs => Memory.writeFrom (Memory.write m k v) (k + 1) vs

/-! ### Ports -/

/-- Reader port `p`, where the implementation has it. -/
def State.port? (s : State) (p : Nat) : Option Port := s.ports[p]?

def State.setPort (s : State) (p : Nat) (q : Port) : State := { s with ports := s.ports.set p q }

/-- PSTATUS.BUSY (R54): 1 exactly while PHASE is EXEC (R59). -/
def Port.busy (q : Port) : Bool := q.cmd.isSome

/-- Acceptance of a command word (R246): the status is cleared to BUSY, and opcode, array and the PARG registers are
latched (R59). -/
def Port.accept (q : Port) (op : BitVec 8) (arr : BitVec 2) : Port :=
  { q with
    done := false
    err := false
    overrun := false
    result := .ok
    cmd := some { op := op, arr := arr, a0 := q.arg0, a1 := q.arg1, a2 := q.arg2, a3 := q.arg3, work := .accepted } }

/-- `complete()` (R246): OVERRUN is kept. -/
def Port.complete (q : Port) : Port := { q with cmd := none, done := true, err := false, result := .ok }

/-- `fail(code)` (R305): OVERRUN is kept, PHASE becomes IDLE and nothing else is written. -/
def Port.fail (q : Port) (code : ResultCode) : Port := { q with cmd := none, done := false, err := true, result := code }

/-- A PCMD write while BUSY (R307): the word is discarded. -/
def Port.noteOverrun (q : Port) : Port := { q with overrun := true }

/-- The host access in progress is a bus error: nothing but its response changes (R306). -/
def State.busError (s : State) : State := { s with busResp := .busError }

/-- One step of a port command with opcode `op` and array field `arr` on port `p` (R246, R307, log 7). An idle port
accepts the command. A port that executes this command takes its next step, `body`. A port that executes another
command discards the word and sets OVERRUN. A port that does not exist has no PCMD register (R112): a bus error. -/
def portCommand (p : Nat) (op : BitVec 8) (arr : BitVec 2) (body : State → Port → Command → State) (s : State) : Result :=
  match s.port? p with
  | none => .next s.busError
  | some q =>
    match q.cmd with
    | none => .next (s.setPort p (q.accept op arr))
    | some c =>
      if c.op = op ∧ c.arr = arr then .next (body s q c)
      else .next (s.setPort p q.noteOverrun)

/-! ### Control and capture records -/

/-- CTRL_STATUS.RUNNING (R34): 1 exactly when CSTATE ≠ STOPPED (R39). -/
def State.running (s : State) : Bool :=
  match s.engine with
  | .stopped => false
  | _ => true

/-- CSTATE = RECEIVE (R39). -/
def State.receiving (s : State) : Bool :=
  match s.engine with
  | .receive => true
  | _ => false

/-- Some port has BUSY = 1 (R150). -/
def State.anyBusy (s : State) : Bool := s.ports.any Port.busy

/-- The record of a CTRL command: CTRL_RESULT and nothing else (R305). -/
def State.ctrlDone (s : State) (code : ResultCode) : State := { s with ctrlResult := code }

/-- The engine takes an offered event only in RECEIVE, and while STOP_PENDING = 1 only under GRACE (R200, R201). -/
def State.accepts (s : State) : Bool := s.receiving && (!s.stopPending || s.grace)

/-- The engine exits on the stop flag (R201). -/
def State.engineExit (s : State) : State := { s with stopPending := false, grace := false, engine := .stopped }

/-- DROP, `drop(reason)` (R205): one count, the reason, and back to RECEIVE. -/
def State.dropPacket (s : State) (reason : DropReason) : State :=
  { s with framesDropped := s.framesDropped + 1, dropReason := some reason, engine := .receive }

/-- The publish of an append (R241): release_store(W, w + 1) and the notification bit WC_ADV (R310). -/
def State.publishW (s : State) (w : Word64) : State := { s with wcount := w + 1, irqStatus := s.irqStatus ||| 1 }

/-! ### Ring storage -/

/-- The word address of channel `ch` of frame index `i` (R44): `(i mod C)*cfg.spf + ch`. -/
def State.ringAddr (s : State) (i ch : Nat) : Nat := (i % s.params.capacity) * s.active.spf.toNat + ch

/-- RingWrite(a, v) (R14, R87). What the word held before is kept for the racing reads of every port (R92, log 11). -/
def State.ringWrite (s : State) (a : Nat) (v : Word16) : State :=
  { s with
    ring := s.ring.write a v
    ports := s.ports.map (fun q => { q with past := (a, s.ring.read a) :: q.past }) }

/-- The values word `a` held from the port's SNAPSHOT until now, newest first (R92); `none` is a word no RingWrite has
reached since the last rebuild. -/
def State.heldValues (s : State) (q : Port) (a : Nat) : List (Option Word16) :=
  s.ring.read a :: (q.past.filter (fun e => e.1 == a)).map Prod.snd

/-- Which of the held values a RingRead returns: the choice that came with the step, 0 (the current value) where it
names none (R92: "the model leaves the choice open", log 11). -/
def State.ringChoice (s : State) (q : Port) (a : Nat) : Nat :=
  if s.pick < (s.heldValues q a).length then s.pick else 0

/-- The chosen value, if the word held one. -/
def State.ringChosen (s : State) (q : Port) (a : Nat) : Option Word16 := ((s.heldValues q a)[s.ringChoice q a]?).join

/-- What RingRead(a) returns on the port (R92): the chosen value, unconstrained where the word held none (log 8). -/
def State.ringValue (s : State) (q : Port) (a : Nat) : Word16 := (s.ringChosen q a).getD (Config.ringFree s.draws)

/-- How many free values a RingRead draws. -/
def State.ringDraws (s : State) (q : Port) (a : Nat) : Nat := if (s.ringChosen q a).isNone then 1 else 0

/-- Forgets what word `a` held before its `n`-th overwritten value, newest first. -/
def keepNewer (a : Nat) : Nat → List (Nat × Option Word16) → List (Nat × Option Word16)
  | _, [] => []
  | n, e :: es =>
    if e.1 = a then
      match n with
      | 0 => keepNewer a 0 es
      | n + 1 => e :: keepNewer a n es
    else e :: keepNewer a n es

/-- The port after a RingRead: a later read of the same word returns no older value (R93). -/
def State.afterRingRead (s : State) (q : Port) (a : Nat) : Port :=
  { q with past := keepNewer a (s.ringChoice q a) q.past }

/-! ### Series memory -/

/-- The stored array of a port (R60, R120). -/
def Port.series (q : Port) : SeriesArr → Memory 64
  | .x => q.x
  | .ymin => q.ymin
  | .ymax => q.ymax
  | .mean => q.mean

def Port.setSeries (q : Port) (arr : SeriesArr) (m : Memory 64) : Port :=
  match arr with
  | .x => { q with x := m }
  | .ymin => { q with ymin := m }
  | .ymax => { q with ymax := m }
  | .mean => { q with mean := m }

/-- SeriesRead(p, arr, k) on an idle port or by the port's own command (R14): the entry, or its unspecified content
since reset (R60, log 9). -/
def State.seriesEntry (s : State) (p : Nat) (q : Port) (arr : SeriesArr) (k : Nat) : F64 :=
  ((q.series arr).read k).getD (Config.seriesFree s.seriesSeed p arr.code k)

/-- Entries 0 .. n − 1 of an array. -/
def State.seriesPart (s : State) (p : Nat) (q : Port) (arr : SeriesArr) (n : Nat) : List F64 :=
  (List.range n).map (s.seriesEntry p q arr)

/-- Stored forms of computed values, a NaN with a free sign and payload for each (log 12); `k` is the number of the
first draw. -/
def settleAll : Nat → List F64 → List F64
  | _, [] => []
  | k, v :: vs => F64.settle k v :: settleAll (k + 1) vs

/-- Writes computed values to entries `k`, `k + 1`, … of an array of the port. -/
def Port.storeSeries (q : Port) (arr : SeriesArr) (k : Nat) (vs : List F64) : Port :=
  q.setSeries arr ((q.series arr).writeFrom k vs)

end Sys2Proof.Machine
end

