-- ==== Sys2Proof/Machine/Operands.lean ====
section
/-!
DEFINITION. Operand forms: packet bytes and header fields (spec/00_scope.md R12, spec/20_memory.md R85), the operands of
port commands latched from PARG0..3 (spec/30_encoding.md R116), array selectors (R120), and the staged configuration
(spec/40_control.md R150).
-/
namespace Sys2Proof.Machine

/-- D[k], byte k of a packet (R12). No rule reads a byte at or past caplen (R12, R181); past the bytes the model gives
0 (log 21). -/
def byteAt (d : List Byte) (k : Nat) : Byte := d.getD k 0

/-- be16(D, k), a big-endian header field (R12, R85). -/
def be16 (d : List Byte) (k : Nat) : Nat := (byteAt d k).toNat * 2 ^ 8 + (byteAt d (k + 1)).toNat

/-- le16 of two bytes (R12). -/
def le16 (lo hi : Byte) : Word16 := hi ++ lo

/-- An operand named u64 (R116). -/
def operandU64 (v : Word64) : Nat := v.toNat

/-- An operand named i64 (R116). -/
def operandI64 (v : Word64) : Int := v.toInt

/-- An operand named f64 (R116). -/
def operandF64 (v : Word64) : F64 := v

/-- The ARR field that selects an array (R115, R120). -/
def arrField (arr : SeriesArr) : BitVec 2 := BitVec.ofNat 2 arr.code

end Sys2Proof.Machine
end

