-- ==== Sys2Proof/Machine/Demux.lean ====
section
/-!
DEFINITION. LinkDemux (spec/41_demux.md): from a captured packet to the offset and length of its UDP payload, or the
reason it is dropped. It writes no state (R181).
-/
namespace Sys2Proof.Machine

/-- An EtherType that announces a VLAN tag (R172). -/
def isVlan (et : Nat) : Bool := decide (et = 0x8100 ∨ et = 0x88A8)

/-- The VLAN loop from the EtherType at `p` on (R171, R172), to the offset of the network header. `fuel` bounds the
number of tags; it starts at caplen, and every tag takes 4 captured bytes, so it never runs out. -/
def etherWalk (caplen : Nat) (d : List Byte) : Nat → Nat → Except DropReason Nat
  | 0, _ => .error .linkTruncated
  | fuel + 1, p =>
    if isVlan (be16 d p) then
      if caplen < p + 4 + 2 then .error .linkTruncated else etherWalk caplen d fuel (p + 4)
    else if be16 d p ≠ 0x0800 then .error .notIpv4
    else .ok (p + 2)

/-- ETHERNET (R171): at least 14 bytes, first EtherType at offset 12. -/
def ethernetHeader (caplen : Nat) (d : List Byte) : Except DropReason Nat :=
  if caplen < 14 then .error .linkTruncated else etherWalk caplen d caplen 12

/-- The offset of the network header for a link-type tag (R170, R173, R174, R175, R179, R119). -/
def linkHeader (tag : Word16) (caplen : Nat) (d : List Byte) : Except DropReason Nat :=
  if tag = 1 then ethernetHeader caplen d
  else if tag = 2 then (if caplen < 16 then .error .linkTruncated else .ok 16)
  else if tag = 3 then (if caplen < 20 then .error .linkTruncated else .ok 20)
  else if tag = 4 then .ok 0
  else .error .linkUnsupported

/-- The IPv4 header at `l3` (R176), to the offset of the UDP header. -/
def ipHeader (caplen : Nat) (d : List Byte) (l3 : Nat) : Except DropReason Nat :=
  if caplen - l3 < 20 then .error .ipTruncated
  else if (byteAt d l3).toNat / 16 ≠ 4 then .error .ipVersion
  else if (byteAt d l3).toNat % 16 < 5 then .error .ipIhl
  else if byteAt d (l3 + 9) ≠ 17 then .error .notUdp
  else .ok (l3 + 4 * ((byteAt d l3).toNat % 16))

/-- The UDP header at `u` (R177) and the payload after it (R178): offset and length. -/
def udpHeader (caplen : Nat) (d : List Byte) (u : Nat) : Except DropReason (Nat × Nat) :=
  if caplen < u + 8 then .error .udpTruncated
  else if be16 d (u + 4) < 8 then .error .udpLength
  else .ok (u + 8, min (be16 d (u + 4) - 8) (caplen - (u + 8)))

/-- LinkDemux(tag, caplen, D) (R170). -/
def linkDemux (tag : Word16) (caplen : Nat) (d : List Byte) : Except DropReason (Nat × Nat) :=
  match linkHeader tag caplen d with
  | .error r => .error r
  | .ok l3 =>
    match ipHeader caplen d l3 with
    | .error r => .error r
    | .ok u => udpHeader caplen d u

end Sys2Proof.Machine
end

