-- ==== Sys2Proof/Machine/Unpack.lean ====
section
/-!
DEFINITION. BitUnpacker (spec/43_unpack.md): from the payload bytes of a frame to its samples. It performs no length
check of its own (R220); the geometry was checked when the configuration was committed (R151).
-/
namespace Sys2Proof.Machine

/-- The four samples of a 5-byte group (R221). -/
def unpackGroup (b0 b1 b2 b3 b4 : Byte) : List Word16 :=
  [ b0.setWidth 16 ||| ((b4 &&& 0x03).setWidth 16 <<< 8),
    b1.setWidth 16 ||| ((b4 &&& 0x0C).setWidth 16 <<< 6),
    b2.setWidth 16 ||| ((b4 &&& 0x30).setWidth 16 <<< 4),
    b3.setWidth 16 ||| ((b4 &&& 0xC0).setWidth 16 <<< 2) ]

/-- Packed10 over `groups` groups, in payload order (R221). -/
def packed10 : Nat → List Byte → List Word16
  | groups + 1, b0 :: b1 :: b2 :: b3 :: b4 :: rest => unpackGroup b0 b1 b2 b3 b4 ++ packed10 groups rest
  | _, _ => []

/-- Fixed16 of `spf` samples (R222). -/
def fixed16 : Nat → List Byte → List Word16
  | spf + 1, lo :: hi :: rest => le16 lo hi :: fixed16 spf rest
  | _, _ => []

/-- The sample payload P of the frame whose first byte is byte `off` of the packet (R207, R220). -/
def samplePayload (c : ParserConfig) (off : Nat) (d : List Byte) : List Byte :=
  (d.drop (off + c.header.toNat)).take c.payload.toNat

/-- Unpack(cfg, F) (R220): `none` for an unrecognized pack mode. -/
def unpackFrame (c : ParserConfig) (off : Nat) (d : List Byte) : Option (List Word16) :=
  if c.pack = 0 then some (packed10 (c.spf.toNat / 4) (samplePayload c off d))
  else if c.pack = 1 then some (fixed16 c.spf.toNat (samplePayload c off d))
  else none

end Sys2Proof.Machine
end

