-- ==== Sys2Proof/Machine/Capture.lean ====
section
/-!
DEFINITION. The capture engine (spec/42_capture.md) and the append to FrameRing (spec/44_ring.md R240, R241): the
ingress events and the steps a packet takes from RECEIVE to PUBLISH or DROP.
-/
namespace Sys2Proof.Machine

/-- A packet is taken in RECEIVE (R202): an oversized one is dropped without its bytes being read. -/
def State.takePacket (s : State) (k : Packet) : State :=
  { s with
    grace := false
    engine := if s.params.maxCaplen < k.caplen.toNat then .drop k .oversize else .demux k }

/-- DEMUX (R200, R202). -/
def demuxStep (s : State) (k : Packet) : State :=
  match linkDemux k.tag k.caplen.toNat k.data with
  | .ok (off, len) => { s with engine := .lengthCheck k off len }
  | .error r => { s with engine := .drop k r }

/-- LENGTH_CHECK (R206). -/
def lengthStep (s : State) (k : Packet) (off len : Nat) : State :=
  if len = s.active.frameSize.toNat then { s with engine := .unpack k off len }
  else { s with engine := .drop k .lengthMismatch }

/-- UNPACK (R208). -/
def unpackStep (s : State) (k : Packet) (off : Nat) : State :=
  match unpackFrame s.active off k.data with
  | some frame => { s with engine := .publish k frame .countFrame }
  | none => { s with engine := .drop k .unpack }

/-- A frame is counted (R46, R209); no host read has seen it yet (log 13). -/
def State.countFrame (s : State) : State := { s with framesReceived := s.framesReceived + 1, framesSeen := false }

/-- A frame's on-wire length is counted (R47, R209); no host read has seen it yet (log 13). -/
def State.countBytes (s : State) (wirelen : Word32) : State :=
  { s with bytesReceived := s.bytesReceived + wirelen.setWidth 64, bytesSeen := false }

/-- One step of PUBLISH (R209, R211): the counter updates, the read of W, which is W_OVERFLOW at 2^64 − 1 (R240,
R308), one RingWrite a step in channel order (R240), the publish (R241), and the return to RECEIVE (log 14). -/
def publishStep (s : State) (k : Packet) (frame : List Word16) : PubStage → Result
  | .countFrame => .next { s.countFrame with engine := .publish k frame .countBytes }
  | .countBytes => .next { s.countBytes k.wirelen with engine := .publish k frame .loadW }
  | .loadW =>
    if s.wcount = BitVec.allOnes 64 then .fault .wOverflow
    else .next { s with engine := .publish k frame (.write s.wcount 0) }
  | .write w ch =>
    if ch < s.active.spf.toNat then
      .next { s.ringWrite (s.ringAddr w.toNat ch) (frame.getD ch 0) with engine := .publish k frame (.write w (ch + 1)) }
    else .next { s.publishW w with engine := .publish k frame .finish }
  | .finish => .next { s with engine := .receive }

/-- The next step of the engine on the packet it holds (R200). In STOPPED and RECEIVE it holds none. -/
def engineStep (s : State) : Result :=
  match s.engine with
  | .stopped => .next s
  | .receive => .next s
  | .demux k => .next (demuxStep s k)
  | .lengthCheck k off len => .next (lengthStep s k off len)
  | .unpack k off _ => .next (unpackStep s k off)
  | .publish k frame stage => publishStep s k frame stage
  | .drop _ reason => .next (s.dropPacket reason)

/-- The packet the engine holds (R41). -/
def Engine.packet? : Engine → Option Packet
  | .stopped => none
  | .receive => none
  | .demux k => some k
  | .lengthCheck k _ _ => some k
  | .unpack k _ _ => some k
  | .publish k _ _ => some k
  | .drop k _ => some k

/-- INGRESS_PACKET (R202). Offered to an engine that can take an event, the packet is taken; where the engine already
holds this packet, its next step is performed (log 7); any other offer is not taken (R141, log 19). -/
def execIngressPacket (tag : Word16) (caplen wirelen : Word32) (data : List Byte) (s : State) : Result :=
  match s.engine.packet? with
  | none => if s.accepts then .next (s.takePacket ⟨tag, caplen, wirelen, data⟩) else .next s
  | some k => if k = ⟨tag, caplen, wirelen, data⟩ then engineStep s else .next s

/-- A loop iteration with no packet (R203): only GRACE is cleared, by taking the event. -/
def State.takeNothing (s : State) : State := if s.accepts then { s with grace := false } else s

/-- INGRESS_TIMEOUT (R203). -/
def execIngressTimeout (s : State) : Result := .next s.takeNothing

/-- INGRESS_KIND3, the reserved kind, acts as TIMEOUT (R203). -/
def execIngressKind3 (s : State) : Result := .next s.takeNothing

/-- INGRESS_SRC_ERROR (R204): the session ends. -/
def execIngressSrcError (s : State) : Result :=
  if s.accepts then
    .next { s with
      engine := .stopped
      stopPending := false
      srcError := true
      irqStatus := s.irqStatus ||| 2
      grace := false }
  else .next s

end Sys2Proof.Machine
end

