-- ==== Sys2Proof/Machine/Control.lean ====
section
/-!
DEFINITION. The CTRL commands (spec/40_control.md): START, STOP, CFG_COMMIT and the check of a ParserConfig. Each is one
indivisible step of the control unit (R154).
-/
namespace Sys2Proof.Machine

/-- START (R140). -/
def execStart (s : State) : Result :=
  if s.running then .next (s.ctrlDone .errState)
  else .next { s with srcError := false, stopPending := false, grace := false, engine := .receive, ctrlResult := .ok }

/-- STOP (R142). Without a session it does nothing; in RECEIVE the first STOP also sets GRACE. -/
def execStop (s : State) : Result :=
  if s.running then
    .next { s with grace := s.grace || (!s.stopPending && s.receiving), stopPending := true, ctrlResult := .ok }
  else .next (s.ctrlDone .ok)

/-- The relation between pack mode, payload and sample count (R151). -/
def ParserConfig.geometryOk (c : ParserConfig) : Bool :=
  if c.pack = 0 then decide (c.payload.toNat % 5 = 0 ∧ c.payload.toNat / 5 * 4 = c.spf.toNat)
  else decide (2 * c.spf.toNat ≤ c.payload.toNat)

/-- Validate(c) (R151): the first failing check decides; the sum is exact. -/
def ParserConfig.validate (maxSpf : Nat) (c : ParserConfig) : ResultCode :=
  if ¬(c.pack = 0 ∨ c.pack = 1) then .cfgBadPackMode
  else if c.header.toNat + c.payload.toNat + c.tail.toNat ≠ c.frameSize.toNat then .cfgBadSplit
  else if c.spf.toNat = 0 ∨ maxSpf < c.spf.toNat then .cfgBadSpf
  else if (c.pack = 0 ∧ c.bps ≠ 10) ∨ (c.pack = 1 ∧ c.bps ≠ 16) then .cfgBadBps
  else if !c.geometryOk then .cfgBadGeometry
  else .ok

/-- The ring rebuild of an accepted commit (R150): the staged fields become active, W and every PSNAP become 0, and
the ring words become unspecified again (R44). -/
def State.rebuild (s : State) : State :=
  { s with
    active := s.staged
    wcount := 0
    ring := []
    ports := s.ports.map (fun q => { q with snap := 0, past := [] })
    ctrlResult := .ok }

/-- CFG_COMMIT (R150). A refused commit changes nothing but CTRL_RESULT. -/
def execCfgCommit (s : State) : Result :=
  if s.running then .next (s.ctrlDone .errState)
  else if s.anyBusy then .next (s.ctrlDone .errPortBusy)
  else
    match s.staged.validate s.params.maxSpf with
    | .ok => .next s.rebuild
    | code => .next (s.ctrlDone code)

end Sys2Proof.Machine
end

