-- ==== Sys2Proof/Machine/Envelope.lean ====
section
/-!
DEFINITION. ENVELOPE (spec/45_envelope.md): windowed minimum, maximum and mean of one channel, one ring read a step
(R269).
-/
namespace Sys2Proof.Machine

/-- The operand checks in their order (R260, R261). −0.0 is not below 0.0. -/
def envelopeError (P : Params) (spf : Nat) (c : Command) : Option ResultCode :=
  let ws := operandF64 c.a1
  let fps := operandF64 c.a2
  if spf ≤ operandU64 c.a0 then some .errChannel
  else if operandU64 c.a3 = 0 ∨ P.maxBins < operandU64 c.a3 then some .errBins
  else if !F64.isFinite ws || !F64.isFinite fps || F64.lt ws 0 || F64.lt fps 0 then some .errWindow
  else none

/-- RoundHalfAway of a finite non-negative value (R262): floor(v + 1/2), exactly. -/
def roundHalfAway (v : F64) : Nat := (2 * F64.units v + F64.unitScale) / (2 * F64.unitScale)

/-- min(wf, avail) (R260, R262): +inf stands above every count. -/
def envelopeSpan (avail : Nat) (ws fps : F64) : Nat :=
  let v := F64.mul ws fps
  if F64.isInf v then avail else min (roundHalfAway v) avail

/-- The first frame of bin `b` (R263). -/
def binLo (start span bins b : Nat) : Nat := start + b * span / bins

/-- The frame after the last of bin `b`; an empty bin is forced to one frame (R263). -/
def binHi (start span bins b : Nat) : Nat :=
  let lo := start + b * span / bins
  let hi := start + (b + 1) * span / bins
  if hi = lo then lo + 1 else hi

/-- The sign of −ws·n/d rounded once: minus where the rounded magnitude is not 0, plus for an exact zero (R265, R266). The
spec names no sign for a value that is not 0 and rounds to zero (R13 rounds a real number): it is free. DESIGN CHOICE
(log 26). -/
def negScaledSign (ws : F64) (n d : Nat) : Bool :=
  decide (F64.units ws * n ≠ 0) &&
    (decide (F64.roundMag (F64.units ws * n) d ≠ 0) || Config.underflowSign ws n d)

/-- −ws·n/d rounded once (R265, R266, log 26); `ws` is finite and not negative. -/
def negScaled (ws : F64) (n d : Nat) : F64 := F64.round (negScaledSign ws n d) (F64.units ws * n) d

/-- x[b] of a scanned envelope (R265): ws·(2b + 1 − 2·bins)/(2·bins). -/
def binTime (ws : F64) (bins b : Nat) : F64 := negScaled ws (2 * bins - (2 * b + 1)) (2 * bins)

/-- x[b] of the degenerate envelope (R266): ws·(b − bins)/bins. -/
def emptyTime (ws : F64) (bins b : Nat) : F64 := negScaled ws (bins - b) bins

/-- The degenerate envelope (R266): zeros, and x evenly spaced over [−ws, 0). No ring word is read. -/
def Port.storeEmptyEnvelope (q : Port) (ws : F64) (bins : Nat) : Port :=
  { q with
    x := q.x.writeFrom 0 ((List.range bins).map (emptyTime ws bins))
    ymin := q.ymin.writeFrom 0 (List.replicate bins 0)
    ymax := q.ymax.writeFrom 0 (List.replicate bins 0)
    mean := q.mean.writeFrom 0 (List.replicate bins 0) }

/-- The four entries of a bin (R260, R264, R265): minimum and maximum exactly, the mean rounded once. -/
def Port.storeBin (q : Port) (ws : F64) (bins b lo hi mn mx sum : Nat) : Port :=
  { q with
    x := q.x.write b (binTime ws bins b)
    ymin := q.ymin.write b (F64.ofNat mn)
    ymax := q.ymax.write b (F64.ofNat mx)
    mean := q.mean.write b (F64.ofRat false sum (hi - lo)) }

/-- The minimum and maximum with one more value (R260). -/
def widen (r : Option (Nat × Nat)) (v : Nat) : Nat × Nat :=
  match r with
  | none => (v, v)
  | some (mn, mx) => (min mn v, max mx v)

/-- The end of an ENVELOPE: PLAST_BINS and complete() (R260). -/
def Port.finishEnvelope (q : Port) (bins : Word64) : Port := { q.complete with lastBins := bins }

/-- The scan before its first ring read (R260). -/
def scanStart (start span bins : Nat) : Scan where
  span := span
  bin := 0
  frame := binLo start span bins 0
  minMax := none
  sum := 0

/-- The scan after a frame that is not the last of its bin (R260). -/
def Scan.nextFrame (sc : Scan) (mm : Nat × Nat) (sum : Nat) : Scan :=
  { sc with frame := sc.frame + 1, minMax := some mm, sum := sum }

/-- The scan after the last frame of a bin (R260). -/
def Scan.nextBin (sc : Scan) (start bins : Nat) : Scan where
  span := sc.span
  bin := sc.bin + 1
  frame := binLo start sc.span bins (sc.bin + 1)
  minMax := none
  sum := 0

/-- A step of the scan (R260, R269): one RingRead, and with the last frame of a bin its four entries; after the last
bin the completion. -/
def envelopeScan (p : Nat) (s : State) (q : Port) (c : Command) (sc : Scan) : State :=
  let ws := operandF64 c.a1
  let bins := operandU64 c.a3
  let start := q.snap.toNat - sc.span
  let lo := binLo start sc.span bins sc.bin
  let hi := binHi start sc.span bins sc.bin
  if bins ≤ sc.bin then s.setPort p (q.finishEnvelope c.a3)
  else
    let a := s.ringAddr sc.frame (operandU64 c.a0)
    let v := (s.ringValue q a).toNat
    let mm := widen sc.minMax v
    let sum := sc.sum + v
    let q' := s.afterRingRead q a
    let s' := { s with draws := s.draws + s.ringDraws q a }
    if sc.frame + 1 < hi then
      s'.setPort p { q' with
        cmd := some { c with work := .scanning (sc.nextFrame mm sum) } }
    else
      s'.setPort p { q'.storeBin ws bins sc.bin lo hi mm.1 mm.2 sum with
        cmd := some { c with work := .scanning (sc.nextBin start bins) } }

/-- The first step after acceptance (R260, R269): the checks and the span, which need no step of their own, and with them
the failure, the whole degenerate result, or the first RingRead. -/
def envelopeBegin (p : Nat) (s : State) (q : Port) (c : Command) : State :=
  let ws := operandF64 c.a1
  let bins := operandU64 c.a3
  match envelopeError s.params s.active.spf.toNat c with
  | some code => s.setPort p (q.fail code)
  | none =>
    let span := envelopeSpan (min q.snap.toNat s.params.capacity) ws (operandF64 c.a2)
    if span = 0 then s.setPort p ((q.storeEmptyEnvelope ws bins).finishEnvelope c.a3)
    else envelopeScan p s q c (scanStart (q.snap.toNat - span) span bins)

/-- The next step of ENVELOPE (R260, R269). -/
def envelopeStep (p : Nat) (s : State) (q : Port) (c : Command) : State :=
  match c.work with
  | .accepted => envelopeBegin p s q c
  | .scanning sc => envelopeScan p s q c sc

/-- ENVELOPE on port `p` (R260, R246). -/
def execEnvelope (p : Nat) (s : State) : Result := portCommand p 0x03 0 (envelopeStep p) s

end Sys2Proof.Machine
end

