-- ==== Sys2Proof/Machine/Filters.lean ====
section
/-!
DEFINITION. The smoothers (spec/46_filters.md): EMA, SMA and the optional HPF, each in place on the first n entries of
one series array of its port, in binary64 with one rounding for each operation (R13).
-/
namespace Sys2Proof.Machine

/-- 1.0e-6 (R280). -/
def microSecond : F64 := 0x3EB0C6F7A0B5ED8D

/-- 1000.0 (R280). -/
def thousand : F64 := 0x408F400000000000

/-- TWO_PI (R286). -/
def twoPi : F64 := 0x401921FB54442D18

/-- alpha of EMA (R280). -/
def emaAlpha (P : Params) (dt tauMs : F64) : F64 :=
  F64.sub F64.one (P.exp (F64.neg (F64.div dt (F64.maxf (F64.div tauMs thousand) microSecond))))

/-- The loop of EMA (R280): the outputs for the remaining inputs, from the running value `prev`. -/
def emaLoop (alpha prev : F64) : List F64 → List F64
  | [] => []
  | v :: vs =>
    let out := F64.add (F64.mul alpha v) (F64.mul (F64.sub F64.one alpha) prev)
    out :: emaLoop alpha out vs

/-- The outputs A[1 .. n) of EMA for the inputs A[0 .. n) (R280). -/
def emaOutputs (alpha : F64) : List F64 → List F64
  | [] => []
  | v :: vs => emaLoop alpha v vs

/-- The step of EMA (R280): A[0] is not written. -/
def emaStep (p : Nat) (arr : SeriesArr) (s : State) (q : Port) (c : Command) : State :=
  let n := operandU64 c.a2
  if s.params.maxBins < n then s.setPort p (q.fail .errLength)
  else
    let outs := emaOutputs (emaAlpha s.params (operandF64 c.a0) (operandF64 c.a1)) (s.seriesPart p q arr n)
    { s with draws := s.draws + outs.length }.setPort p (q.storeSeries arr 1 (settleAll s.draws outs)).complete

/-- EMA on array `arr` of port `p` (R280, R246). -/
def execEma (p : Nat) (arr : SeriesArr) (s : State) : Result := portCommand p 0x10 (arrField arr) (emaStep p arr) s

/-- The half width of SMA (R283): the width is forced to at least 1 and odd. -/
def smaHalf (w : Int) : Nat :=
  let w1 := if w < 1 then 1 else w
  let w2 := if w1 % 2 = 0 then w1 + 1 else w1
  ((w2 - 1) / 2).toNat

/-- Output `i` of SMA (R283): the sum of the clipped window, left to right, over its exact count. -/
def smaOutput (t : List F64) (half i : Nat) : F64 :=
  let lo := i - half
  let hi := min (t.length - 1) (i + half)
  match (t.drop lo).take (hi + 1 - lo) with
  | [] => F64.nan
  | v :: vs => F64.div (vs.foldl F64.add v) (F64.ofNat (hi - lo + 1))

/-- The outputs A[0 .. n) of SMA (R283), all computed from the unmodified inputs. -/
def smaOutputs (t : List F64) (half : Nat) : List F64 := (List.range t.length).map (smaOutput t half)

/-- The step of SMA (R283): a width of 1 is the identity on every entry, a NaN included. -/
def smaStep (p : Nat) (arr : SeriesArr) (s : State) (q : Port) (c : Command) : State :=
  let n := operandU64 c.a1
  if s.params.maxBins < n then s.setPort p (q.fail .errLength)
  else if smaHalf (operandI64 c.a0) = 0 then s.setPort p (q.storeSeries arr 0 (s.seriesPart p q arr n)).complete
  else
    let outs := smaOutputs (s.seriesPart p q arr n) (smaHalf (operandI64 c.a0))
    { s with draws := s.draws + outs.length }.setPort p (q.storeSeries arr 0 (settleAll s.draws outs)).complete

/-- SMA on array `arr` of port `p` (R283, R246). -/
def execSma (p : Nat) (arr : SeriesArr) (s : State) : Result := portCommand p 0x11 (arrField arr) (smaStep p arr) s

/-- alpha of HPF (R286): tau / (tau + dt) with tau = 1 / (TWO_PI · fc). -/
def hpfAlpha (dt fc : F64) : F64 :=
  let tau := F64.div F64.one (F64.mul twoPi fc)
  F64.div tau (F64.add tau dt)

/-- The loop of HPF (R286): `y` is the previous output, `prev` the previous input. -/
def hpfLoop (alpha y prev : F64) : List F64 → List F64
  | [] => []
  | v :: vs =>
    let out := F64.mul alpha (F64.sub (F64.add y v) prev)
    out :: hpfLoop alpha out v vs

/-- The initial output of HPF (R287). -/
def hpfFirst (y0 : HpfY0) (v : F64) : F64 :=
  match y0 with
  | .series0 => v
  | .zero => F64.zero false

/-- The step of HPF (R286): fc ≤ 0 or n = 0 passes the series through. -/
def hpfStep (p : Nat) (arr : SeriesArr) (s : State) (q : Port) (c : Command) : State :=
  let n := operandU64 c.a2
  let fc := operandF64 c.a1
  if s.params.maxBins < n then s.setPort p (q.fail .errLength)
  else if F64.le fc (F64.zero false) then s.setPort p q.complete
  else
    match s.seriesPart p q arr n with
    | [] => s.setPort p q.complete
    | v :: vs =>
      let y := hpfFirst s.params.hpfY0 v
      let outs := hpfLoop (hpfAlpha (operandF64 c.a0) fc) y v vs
      { s with draws := s.draws + outs.length }.setPort p
        (q.storeSeries arr 0 (y :: settleAll s.draws outs)).complete

/-- HPF on array `arr` of port `p` (R286). Where the unit is absent an idle port accepts the word and reports
ERR_FEATURE at once (R246, R123). -/
def execHpf (p : Nat) (arr : SeriesArr) (s : State) : Result :=
  match s.port? p with
  | some q =>
    if !s.params.hpfPresent && !q.busy then .next (s.setPort p ((q.accept 0x12 (arrField arr)).fail .errFeature))
    else portCommand p 0x12 (arrField arr) (hpfStep p arr) s
  | none => .next s.busError

end Sys2Proof.Machine
end

