-- ==== Sys2Proof/Machine/Ring.lean ====
section
/-!
DEFINITION. The reader commands of FrameRing (spec/44_ring.md): SNAPSHOT and GET_SAMPLE.
-/
namespace Sys2Proof.Machine

/-- The step of SNAPSHOT (R243): an acquire load of W (R90) into PSNAP. The port's racing reads look back no further
than this instant (R92). -/
def snapshotStep (p : Nat) (s : State) (q : Port) (_ : Command) : State :=
  s.setPort p { q.complete with snap := s.wcount, past := [] }

/-- SNAPSHOT on port `p` (R243, R246). -/
def execSnapshot (p : Nat) (s : State) : Result := portCommand p 0x01 0 (snapshotStep p) s

/-- Frame index `i` is valid for snapshot `snap` (R244, R245): i < S and S − i ≤ C. -/
def validIndex (capacity snap i : Nat) : Bool := decide (i < snap ∧ snap - i ≤ capacity)

/-- The step of GET_SAMPLE (R244): index, then channel, then one RingRead. -/
def getSampleStep (p : Nat) (s : State) (q : Port) (c : Command) : State :=
  let i := operandU64 c.a0
  let ch := operandU64 c.a1
  if !validIndex s.params.capacity q.snap.toNat i then s.setPort p (q.fail .errIndex)
  else if s.active.spf.toNat ≤ ch then s.setPort p (q.fail .errChannel)
  else
    let a := s.ringAddr i ch
    { s with draws := s.draws + s.ringDraws q a }.setPort p
      { (s.afterRingRead q a).complete with sample := (s.ringValue q a).setWidth 64 }

/-- GET_SAMPLE on port `p` (R244, R246). -/
def execGetSample (p : Nat) (s : State) : Result := portCommand p 0x02 0 (getSampleStep p) s

end Sys2Proof.Machine
end

