-- ==== Sys2Proof/Machine/Dispatch.lean ====
section
/-!
DEFINITION. One arm per instruction (spec/opcode_table.json).
-/
namespace Sys2Proof.Machine

def exec (i : Instr) (s : State) : Host.Outcome State Fault Refusal :=
  match i with
  | .start => Sys2Proof.Machine.execStart s
  | .stop => Sys2Proof.Machine.execStop s
  | .cfgCommit => Sys2Proof.Machine.execCfgCommit s
  | .snapshot p => Sys2Proof.Machine.execSnapshot p s
  | .getSample p => Sys2Proof.Machine.execGetSample p s
  | .envelope p => Sys2Proof.Machine.execEnvelope p s
  | .ema p arr => Sys2Proof.Machine.execEma p arr s
  | .sma p arr => Sys2Proof.Machine.execSma p arr s
  | .hpf p arr => Sys2Proof.Machine.execHpf p arr s
  | .ingressPacket tag caplen wirelen data => Sys2Proof.Machine.execIngressPacket tag caplen wirelen data s
  | .ingressTimeout => Sys2Proof.Machine.execIngressTimeout s
  | .ingressSrcError => Sys2Proof.Machine.execIngressSrcError s
  | .ingressKind3 => Sys2Proof.Machine.execIngressKind3 s

end Sys2Proof.Machine
end

