-- ==== Sys2Proof/Machine/Flags.lean ====
section
/-!
DEFINITION. Codes and status words as software reads them: result codes (spec/60_exceptions.md R302), drop reasons
(R303), CTRL_STATUS (spec/10_state.md R34), PSTATUS (R54), DROP_REASON (R49), IRQ_STATUS, IRQ_ENABLE and NOTIFY
(R50 to R52, R310), and the constants ID and FEATURES (R31, R32).
-/
namespace Sys2Proof.Machine

/-- R302. -/
def ResultCode.code : ResultCode → BitVec 8
  | .ok => 0x00
  | .errOpcode => 0x01
  | .errState => 0x02
  | .errPortBusy => 0x03
  | .errFeature => 0x04
  | .cfgBadPackMode => 0x10
  | .cfgBadSplit => 0x11
  | .cfgBadSpf => 0x12
  | .cfgBadBps => 0x13
  | .cfgBadGeometry => 0x14
  | .errIndex => 0x20
  | .errChannel => 0x21
  | .errBins => 0x22
  | .errWindow => 0x23
  | .errLength => 0x24

/-- R303. -/
def DropReason.code : DropReason → BitVec 8
  | .linkUnsupported => 0x30
  | .linkTruncated => 0x31
  | .notIpv4 => 0x32
  | .ipTruncated => 0x33
  | .ipVersion => 0x34
  | .ipIhl => 0x35
  | .notUdp => 0x36
  | .udpLength => 0x37
  | .lengthMismatch => 0x38
  | .unpack => 0x39
  | .oversize => 0x3A
  | .udpTruncated => 0x3B

/-- A flag in its bit of a 64-bit word. -/
def flagBit (b : Bool) (k : Nat) : Word64 := if b then 1 <<< k else 0

/-- CTRL_STATUS (R34): [0] RUNNING, [1] STOP_PENDING, [2] SRC_ERROR, [15:8] CTRL_RESULT, the rest 0. -/
def State.ctrlStatusWord (s : State) : Word64 :=
  flagBit s.running 0 ||| flagBit s.stopPending 1 ||| flagBit s.srcError 2 ||| (s.ctrlResult.code.setWidth 64 <<< 8)

/-- PSTATUS (R54): [0] BUSY, [1] DONE, [2] ERR, [3] OVERRUN, [15:8] PRESULT, the rest 0. -/
def Port.statusWord (q : Port) : Word64 :=
  flagBit q.busy 0 ||| flagBit q.done 1 ||| flagBit q.err 2 ||| flagBit q.overrun 3 ||| (q.result.code.setWidth 64 <<< 8)

/-- DROP_REASON (R49): the most recent drop's code, 0x00 if none since reset. -/
def State.dropReasonWord (s : State) : Word64 :=
  match s.dropReason with
  | none => 0
  | some r => r.code.setWidth 64

/-- The output line NOTIFY (R52). -/
def State.notify (s : State) : Bool := decide (s.irqStatus &&& s.irqEnable ≠ 0)

/-- A host write to IRQ_STATUS (R50): writing 1 to a bit clears it, reserved bits are ignored. -/
def State.clearIrq (s : State) (v : Word64) : State := { s with irqStatus := s.irqStatus &&& ~~~(v.setWidth 2) }

/-- ID (R31). -/
def idWord : Word64 := 0x0000000755445053

/-- FEATURES (R32): [7:0] NUM_READERS, [8] HPF_PRESENT, [9] HPF_Y0 (0 SERIES0, 1 ZERO; 0 when the unit is absent). -/
def featuresWord (P : Params) : Word64 :=
  ((BitVec.ofNat 8 P.numReaders).setWidth 64) ||| flagBit P.hpfPresent 8 |||
    flagBit (P.hpfPresent && decide (P.hpfY0 = .zero)) 9

end Sys2Proof.Machine
end

