-- ==== Sys2Proof/Machine/Host.lean ====
section
/-!
DEFINITION. The register space (spec/30_encoding.md R111 to R113) and host bus accesses to it (spec/20_memory.md R82 to
R84, R89, R95, R97, R102; spec/60_exceptions.md R306). A register read has no effect on the CORE (R102);
the model records what it has seen (log 13).
-/
namespace Sys2Proof.Machine

/-- The ParserConfig fields, in the order of the CFG and ACT registers (R112). -/
inductive CfgField where
  | frameSize
  | header
  | payload
  | tail
  | bps
  | spf
  | pack
deriving DecidableEq, Repr

/-- The four operand registers of a port (R56). -/
inductive ArgReg where
  | arg0
  | arg1
  | arg2
  | arg3
deriving DecidableEq, Repr

/-- The mapped registers (R112, R113). -/
inductive Reg where
  | id
  | capacity
  | maxSpf
  | maxBins
  | features
  | maxCaplen
  | ctrl
  | ctrlStatus
  | cfg (f : CfgField)
  | act (f : CfgField)
  | wcount
  | framesReceived
  | bytesReceived
  | framesDropped
  | dropReason
  | irqStatus
  | irqEnable
  | pcmd (p : Nat)
  | pstatus (p : Nat)
  | psnap (p : Nat)
  | parg (p : Nat) (k : ArgReg)
  | presultSample (p : Nat)
  | plastBins (p : Nat)
  | series (p : Nat) (arr : SeriesArr) (k : Nat)
deriving DecidableEq, Repr

/-- The register that a map lists at an offset. -/
def lookupReg (map : List (Nat × Reg)) (off : Nat) : Option Reg := (map.find? (fun e => e.1 == off)).map Prod.snd

/-- The control block (R112). -/
def controlMap : List (Nat × Reg) :=
  [ (0x000, .id),
    (0x008, .capacity),
    (0x010, .maxSpf),
    (0x018, .maxBins),
    (0x020, .features),
    (0x028, .maxCaplen),
    (0x040, .ctrl),
    (0x048, .ctrlStatus),
    (0x050, .cfg .frameSize),
    (0x058, .cfg .header),
    (0x060, .cfg .payload),
    (0x068, .cfg .tail),
    (0x070, .cfg .bps),
    (0x078, .cfg .spf),
    (0x080, .cfg .pack),
    (0x090, .act .frameSize),
    (0x098, .act .header),
    (0x0A0, .act .payload),
    (0x0A8, .act .tail),
    (0x0B0, .act .bps),
    (0x0B8, .act .spf),
    (0x0C0, .act .pack),
    (0x100, .wcount),
    (0x108, .framesReceived),
    (0x110, .bytesReceived),
    (0x118, .framesDropped),
    (0x120, .dropReason),
    (0x128, .irqStatus),
    (0x130, .irqEnable) ]

/-- The register at an offset of the control block. -/
def controlReg (off : Nat) : Option Reg := lookupReg controlMap off

/-- A port block (R112). -/
def portMap (p : Nat) : List (Nat × Reg) :=
  [ (0x00, .pcmd p),
    (0x08, .pstatus p),
    (0x10, .psnap p),
    (0x18, .parg p .arg0),
    (0x20, .parg p .arg1),
    (0x28, .parg p .arg2),
    (0x30, .parg p .arg3),
    (0x38, .presultSample p),
    (0x40, .plastBins p) ]

/-- The register at an offset of a port block. -/
def portReg (p off : Nat) : Option Reg := lookupReg (portMap p) off

/-- The address of CTRL (R112). -/
def ctrlAddr : Word32 := 0x040

/-- PORT_BASE(p) (R112), the address of PCMD(p). -/
def portBase (p : Nat) : Nat := 0x1000 + 0x100 * p

/-- SERIES_BASE(p) (R113). -/
def seriesBase (p : Nat) : Nat := 0x00100000 * (p + 1)

/-- The register at a byte address, `none` where nothing is mapped (R81, R111, R112, R113). Every register is 8 bytes
at a multiple of 8, so a misaligned address is no register's (R82). -/
def regAt (P : Params) (addr : Nat) : Option Reg :=
  if addr % 8 ≠ 0 then none
  else if addr < 0x1000 then controlReg addr
  else if addr < 0x100000 then
    let p := (addr - 0x1000) / 0x100
    if p < P.numReaders then portReg p ((addr - 0x1000) % 0x100) else none
  else
    let p := addr / 0x100000 - 1
    let off := addr % 0x100000
    let k := off % 0x40000 / 8
    if p < P.numReaders ∧ k < P.maxBins then some (.series p (SeriesArr.ofCode (off / 0x40000)) k) else none

/-- The register a host access reaches: it must be of 8 bytes (R82). -/
def accessReg (P : Params) (addr : Word32) (size : Nat) : Option Reg :=
  if size = 8 then regAt P addr.toNat else none

/-- A field of a ParserConfig (R35). -/
def ParserConfig.get (c : ParserConfig) : CfgField → Word32
  | .frameSize => c.frameSize
  | .header => c.header
  | .payload => c.payload
  | .tail => c.tail
  | .bps => c.bps
  | .spf => c.spf
  | .pack => c.pack

def ParserConfig.set (c : ParserConfig) (f : CfgField) (v : Word32) : ParserConfig :=
  match f with
  | .frameSize => { c with frameSize := v }
  | .header => { c with header := v }
  | .payload => { c with payload := v }
  | .tail => { c with tail := v }
  | .bps => { c with bps := v }
  | .spf => { c with spf := v }
  | .pack => { c with pack := v }

def Port.getArg (q : Port) : ArgReg → Word64
  | .arg0 => q.arg0
  | .arg1 => q.arg1
  | .arg2 => q.arg2
  | .arg3 => q.arg3

def Port.setArg (q : Port) (k : ArgReg) (v : Word64) : Port :=
  match k with
  | .arg0 => { q with arg0 := v }
  | .arg1 => { q with arg1 := v }
  | .arg2 => { q with arg2 := v }
  | .arg3 => { q with arg3 := v }

/-- What the packet being published has added to FRAMES_RECEIVED so far (R209). -/
def Engine.addedFrames : Engine → Option Word64
  | .publish _ _ .countFrame => none
  | .publish _ _ _ => some 1
  | _ => none

/-- What the packet being published has added to BYTES_RECEIVED so far (R209). -/
def Engine.addedBytes : Engine → Option Word64
  | .publish _ _ .countFrame => none
  | .publish _ _ .countBytes => none
  | .publish k _ _ => some (k.wirelen.setWidth 64)
  | _ => none

/-- A host read of FRAMES_RECEIVED misses the packet being published: the packet is counted, no read has seen it yet, and
the choice number is odd (R95: an observer may see the updates of a packet in any combination until the engine is back in
RECEIVE; R46: a read that has seen it is followed by none that misses it; log 13). -/
def State.framesLate (s : State) : Bool := s.engine.addedFrames.isSome && !s.framesSeen && decide (s.pick % 2 = 1)

/-- The same for BYTES_RECEIVED (R47, R95, log 13). -/
def State.bytesLate (s : State) : Bool := s.engine.addedBytes.isSome && !s.bytesSeen && decide (s.pick % 2 = 1)

/-- FRAMES_RECEIVED as a host read sees it (R46, R95). -/
def State.readFrames (s : State) : Word64 :=
  if s.framesLate then s.framesReceived - s.engine.addedFrames.getD 0 else s.framesReceived

/-- BYTES_RECEIVED as a host read sees it (R47, R95). -/
def State.readBytes (s : State) : Word64 :=
  if s.bytesLate then s.bytesReceived - s.engine.addedBytes.getD 0 else s.bytesReceived

/-- What a host read of a register leaves on the record: whether it saw the packet being published counted (log 13). -/
def State.noteSeen (s : State) (r : Reg) : State :=
  { s with
    framesSeen := if r = .framesReceived then !s.framesLate else s.framesSeen
    bytesSeen := if r = .bytesReceived then !s.bytesLate else s.bytesSeen }

/-- A register of a port; a port that does not exist has none. -/
def State.portValue (s : State) (p : Nat) (f : Port → Word64) : Word64 :=
  match s.port? p with
  | some q => f q
  | none => 0

/-- A host read of a series entry (R83): the entry while the port is idle, a free value while it is busy (log 10). -/
def State.readSeries (s : State) (p : Nat) (arr : SeriesArr) (k : Nat) : Word64 :=
  s.portValue p (fun q => if q.busy then Config.busyReadFree s.draws else s.seriesEntry p q arr k)

/-- The value a host read of a register returns (R31 to R60). A read of a write-only register returns 0 (R33, R53). -/
def State.readReg (s : State) : Reg → Word64
  | .id => idWord
  | .capacity => BitVec.ofNat 64 s.params.capacity
  | .maxSpf => BitVec.ofNat 64 s.params.maxSpf
  | .maxBins => BitVec.ofNat 64 s.params.maxBins
  | .features => featuresWord s.params
  | .maxCaplen => BitVec.ofNat 64 s.params.maxCaplen
  | .ctrl => 0
  | .ctrlStatus => s.ctrlStatusWord
  | .cfg f => (s.staged.get f).setWidth 64
  | .act f => (s.active.get f).setWidth 64
  | .wcount => s.wcount
  | .framesReceived => s.readFrames
  | .bytesReceived => s.readBytes
  | .framesDropped => s.framesDropped
  | .dropReason => s.dropReasonWord
  | .irqStatus => s.irqStatus.setWidth 64
  | .irqEnable => s.irqEnable.setWidth 64
  | .pcmd _ => 0
  | .pstatus p => s.portValue p Port.statusWord
  | .psnap p => s.portValue p Port.snap
  | .parg p k => s.portValue p (fun q => q.getArg k)
  | .presultSample p => s.portValue p Port.sample
  | .plastBins p => s.portValue p Port.lastBins
  | .series p arr k => s.readSeries p arr k

/-- How many free values a host read of a register draws: one for a series entry of a busy port (R83). -/
def State.readDraws (s : State) : Reg → Nat
  | .series p _ _ =>
    match s.port? p with
    | some q => if q.busy then 1 else 0
    | none => 0
  | _ => 0

/-- A host read (R82): a bus error where no register is reached, else the register's value. -/
def State.hostRead (s : State) (addr : Word32) (size : Nat) : State :=
  match accessReg s.params addr size with
  | none => s.busError
  | some r => { s.noteSeen r with busResp := .data (s.readReg r), draws := s.draws + s.readDraws r }

/-- A change of port `p`, where it exists. -/
def State.updatePort (s : State) (p : Nat) (f : Port → Port) : State :=
  match s.port? p with
  | some q => s.setPort p (f q)
  | none => s

/-- The effect of a host write on a register that is no command register: read-write registers store the bits they
have (R35, R51, R56), IRQ_STATUS clears (R50), everything else ignores the write (R112). -/
def State.storeReg (s : State) (v : Word64) : Reg → State
  | .cfg f => { s with staged := s.staged.set f (v.setWidth 32) }
  | .irqStatus => s.clearIrq v
  | .irqEnable => { s with irqEnable := v.setWidth 2 }
  | .parg p k => s.updatePort p (fun q => q.setArg k v)
  | .series p arr k => s.updatePort p (fun q => q.setSeries arr ((q.series arr).write k v))
  | _ => s

/-- A write to a port's series memory while the port is busy is a bus error (R83). -/
def State.writeRefused (s : State) : Reg → Bool
  | .series p _ _ =>
    match s.port? p with
    | some q => q.busy
    | none => false
  | _ => false

/-- A host write to a register other than CTRL and PCMD (R82, R83). -/
def State.hostStore (s : State) (r : Reg) (v : Word64) : State :=
  if s.writeRefused r then s.busError else { s.storeReg v r with busResp := .data 0 }

end Sys2Proof.Machine
end

