-- ==== Sys2Proof/Machine/Fetch.lean ====
section
/-!
DEFINITION. What the next agent step is asked to run (spec/00_scope.md R9; spec/30_encoding.md R110): the instruction its
bytes decode to, or an effect that is no instruction's (a register access, an overrun, an illegal word, the engine's
exit, reset). There is no instruction fetch in the CORE (R99); an instruction arrives in a register write or an ingress
event, and an agent that holds one goes on with it.
-/
namespace Sys2Proof.Machine

/-- What a scheduled step amounts to: an instruction to run in a state, a next state without one, or a refusal. -/
inductive Fetched where
  | run (i : Instr) (s : State)
  | done (s : State)
  | refuse (r : Refusal)
deriving DecidableEq, Repr

/-- A host write of a word to CTRL (R114): an illegal word records ERR_OPCODE and has no other effect. -/
def fetchCtrl (s : State) (v : Word64) : Fetched :=
  let s' := { s with busResp := .data 0 }
  match decode .ctrl (bytesLE 8 v.toNat) with
  | .ok i => .run i s'
  | .error _ => .done (s'.ctrlDone .errOpcode)

/-- A host write of a word to PCMD(p) (R246): discarded with OVERRUN while the port is busy (R307); an illegal word is
accepted and completes at once with ERR_OPCODE (R115). -/
def fetchPcmd (s : State) (p : Nat) (v : Word64) : Fetched :=
  let s' := { s with busResp := .data 0 }
  match s.port? p with
  | none => .done s.busError
  | some q =>
    if q.busy then .done (s'.setPort p q.noteOverrun)
    else
      match decode (.port p) (bytesLE 8 v.toNat) with
      | .ok i => .run i s'
      | .error _ => .done (s'.setPort p ((q.accept (v.setWidth 8) ((v >>> 8).setWidth 2)).fail .errOpcode))

/-- A host write (R82, R97). -/
def fetchWrite (s : State) (addr : Word32) (size : Nat) (v : Word64) : Fetched :=
  match accessReg s.params addr size with
  | none => .done s.busError
  | some .ctrl => fetchCtrl s v
  | some (.pcmd p) => fetchPcmd s p v
  | some r => .done (s.hostStore r v)

/-- An ingress transaction offered by the capture source (R117, R141): taken where the engine can take an event, and
otherwise left to the source (log 19). -/
def fetchOffer (s : State) (bytes : List Byte) : Fetched :=
  match decode .ingress bytes with
  | .error _ => .refuse .malformedIngress
  | .ok i => if s.accepts then .run i s else .done s

/-- The packet instruction the engine goes on with. -/
def Packet.instr (k : Packet) : Instr := .ingressPacket k.tag k.caplen k.wirelen k.data

/-- A step of the capture engine (R200, R201): it goes on with the packet it holds; in RECEIVE it exits when
STOP_PENDING = 1, and otherwise it waits; in STOPPED it has no step. -/
def fetchEngine (s : State) : Fetched :=
  match s.engine.packet? with
  | some k => .run k.instr s
  | none => if s.receiving && s.stopPending then .done s.engineExit else .done s

/-- A step of reader port `p` (R246): it goes on with the latched command; an idle port has no step. -/
def fetchPort (s : State) (p : Nat) : Fetched :=
  match s.port? p with
  | none => .done s
  | some q =>
    match q.cmd with
    | none => .done s
    | some c =>
      match decode (.port p) (bytesLE 8 (portWord c.op.toNat c.arr.toNat)) with
      | .ok i => .run i s
      | .error _ => .done s

/-- Reset (R330): every element to its reset value, the parameters kept. The steps to come are the schedule's, and the
series contents become unspecified anew (log 9). -/
def State.applyReset (s : State) : State :=
  { State.resetWith s.params with schedule := s.schedule, draws := s.draws, seriesSeed := s.seriesSeed + 1 }

/-- What a scheduled agent step is asked to run, in a state from whose schedule it has been taken. -/
def fetch (a : Action) (s : State) : Fetched :=
  match a with
  | .host (.read addr size) pick => .done ({ s with pick := pick }.hostRead addr size)
  | .host (.write addr size v) pick => fetchWrite { s with pick := pick } addr size v
  | .offer bytes => fetchOffer s bytes
  | .engine => fetchEngine s
  | .port p pick => fetchPort { s with pick := pick } p
  | .reset => .done s.applyReset

/-- `withFetchWord` for a table word: the schedule begins with the step that delivers it. A 64-bit word is a host
write to CTRL, or to PCMD(0) with port 0 idle; a shorter one is the header of an ingress transaction, offered to an
engine in RECEIVE (log 4). -/
def State.deliver (s : State) (nbits w : Nat) : State :=
  if nbits < 64 then
    { s with
      engine := .receive
      stopPending := false
      grace := false
      schedule := .offer (ingressTableBytes w) :: s.schedule }
  else
    match tableSpace w with
    | .ctrl => { s with schedule := .host (.write ctrlAddr 8 (BitVec.ofNat 64 w)) 0 :: s.schedule }
    | _ =>
      { s with
        ports := s.ports.modify 0 (fun q => { q with cmd := none })
        schedule := .host (.write (BitVec.ofNat 32 (portBase 0)) 8 (BitVec.ofNat 64 w)) 0 :: s.schedule }

end Sys2Proof.Machine
end

