-- ==== Sys2Proof/Machine/Step.lean ====
section
/-!
DEFINITION. One step of the CORE: the next scheduled agent step (spec/00_scope.md R9, R10; log 3).
-/
namespace Sys2Proof.Machine

/-- The next scheduled agent step is taken from the schedule and performed. With nothing scheduled no agent has a step
and nothing changes (R319, R331). -/
def step (s : State) : Host.Outcome State Fault Refusal :=
  match s.schedule with
  | [] => .next s
  | a :: rest =>
    match fetch a { s with schedule := rest } with
    | .run i s' => exec i s'
    | .done s' => .next s'
    | .refuse r => .refused r

/-- The state whose next step delivers and runs a table word (log 4). -/
def State.withFetchWord (s : State) (nbits w : Nat) : State := s.deliver nbits w

end Sys2Proof.Machine
end

