-- ==== Sys2Proof/Safety.lean ====
section
/-!
DEFINITION. What a good state of the CORE is, and the vocabulary the statements use: the invariant of
spec/10_state.md (R34, R37, R39, R45, R54, R59) and spec/44_ring.md (R245), and what an ENVELOPE of an idle writer is
(spec/45_envelope.md).
-/
namespace Sys2Proof.Machine

/-- A packet context holds exactly caplen bytes (R117), and they passed the size check (R202). -/
def Packet.good (P : Params) (k : Packet) : Prop :=
  k.data.length = k.caplen.toNat ∧ k.caplen.toNat ≤ P.maxCaplen

/-- What the engine holds fits the state it is in (R41, R178, R206, R208, R240, R43). -/
def Engine.good (s : State) : Engine → Prop
  | .stopped => True
  | .receive => True
  | .demux k => k.good s.params
  | .lengthCheck k off len => k.good s.params ∧ off + len ≤ k.caplen.toNat
  | .unpack k off len => k.good s.params ∧ off + len ≤ k.caplen.toNat ∧ len = s.active.frameSize.toNat
  | .publish _ frame stage =>
    frame.length = s.active.spf.toNat ∧
    (match stage with
      | .write w ch => w = s.wcount ∧ w ≠ BitVec.allOnes 64 ∧ ch ≤ s.active.spf.toNat ∧
          ∀ c < ch, (s.ring.read (s.ringAddr w.toNat c)).isSome
      | _ => True)
  | .drop _ _ => True

/-- The ENVELOPE a port scans reads only frames that are valid for its snapshot, and writes only entries the series
memory has (R263, R268). -/
def Scan.good (s : State) (q : Port) (c : Command) (sc : Scan) : Prop :=
  operandU64 c.a0 < s.active.spf.toNat ∧ operandU64 c.a3 ≤ s.params.maxBins ∧
  0 < sc.span ∧ sc.span ≤ q.snap.toNat ∧ sc.span ≤ s.params.capacity ∧
  (sc.bin < operandU64 c.a3 →
    binLo (q.snap.toNat - sc.span) sc.span (operandU64 c.a3) sc.bin ≤ sc.frame ∧
    sc.frame < binHi (q.snap.toNat - sc.span) sc.span (operandU64 c.a3) sc.bin)

/-- The command a port holds is one its PCMD accepts (R115, R122, R246). -/
def Command.good (s : State) (q : Port) (c : Command) : Prop :=
  ((c.op = 0x01 ∨ c.op = 0x02 ∨ c.op = 0x03) ∧ c.arr = 0 ∨ c.op = 0x10 ∨ c.op = 0x11 ∨
    c.op = 0x12 ∧ s.params.hpfPresent = true) ∧
  (match c.work with
    | .accepted => True
    | .scanning sc => c.op = 0x03 ∧ sc.good s q c)

/-- A storage in canonical form with every address below a bound. -/
def Memory.within {n : Nat} (m : Memory n) (bound : Nat) : Prop := m.wf ∧ ∀ e ∈ m, e.1 < bound

/-- What holds of every port: at most one of BUSY, DONE and ERR (R54), a snapshot no newer than W, series entries
within MAX_BINS (R60), an accepted command, and no valid index whose word ever held nothing (R245). -/
structure Port.Good (s : State) (q : Port) : Prop where
  status : ¬(q.done = true ∧ q.err = true) ∧ (q.busy = true → q.done = false ∧ q.err = false)
  snap_le : q.snap.toNat ≤ s.wcount.toNat
  series : ∀ arr, (q.series arr).within s.params.maxBins
  command : ∀ c, q.cmd = some c → c.good s q
  past_written : ∀ i ch, validIndex s.params.capacity q.snap.toNat i = true → ch < s.active.spf.toNat →
    ∀ e ∈ q.past, e.1 = s.ringAddr i ch → e.2.isSome

/-- The invariant of the CORE. -/
structure State.Inv (s : State) : Prop where
  params_valid : s.params.valid
  active_valid : s.active.validate s.params.maxSpf = .ok
  port_count : s.ports.length = s.params.numReaders
  stop_running : s.stopPending = true → s.running = true
  grace_waiting : s.grace = true → s.stopPending = true ∧ s.receiving = true
  engine_good : s.engine.good s
  ring_within : s.ring.within (s.params.capacity * s.active.spf.toNat)
  retained_written : ∀ i ch, validIndex s.params.capacity s.wcount.toNat i = true → ch < s.active.spf.toNat →
    (s.ring.read (s.ringAddr i ch)).isSome
  ports_good : ∀ q ∈ s.ports, q.Good s

/-- The port, opcode and array field of a port command, from the opcode map (R120, R122). -/
def portParts : Instr → Option (Nat × BitVec 8 × BitVec 2)
  | .snapshot p => some (p, 0x01, 0)
  | .getSample p => some (p, 0x02, 0)
  | .envelope p => some (p, 0x03, 0)
  | .ema p arr => some (p, 0x10, BitVec.ofNat 2 arr.code)
  | .sma p arr => some (p, 0x11, BitVec.ofNat 2 arr.code)
  | .hpf p arr => some (p, 0x12, BitVec.ofNat 2 arr.code)
  | _ => none

/-- The address of a ParserConfig register in its group of seven (R112). -/
def cfgOffset : CfgField → Nat
  | .frameSize => 0x00
  | .header => 0x08
  | .payload => 0x10
  | .tail => 0x18
  | .bps => 0x20
  | .spf => 0x28
  | .pack => 0x30

/-- The address of a register, written from R112 and R113; `none` for a register of a port, or a series entry, that
the implementation does not have. -/
def regAddress (P : Params) : Reg → Option Nat
  | .id => some 0x000
  | .capacity => some 0x008
  | .maxSpf => some 0x010
  | .maxBins => some 0x018
  | .features => some 0x020
  | .maxCaplen => some 0x028
  | .ctrl => some 0x040
  | .ctrlStatus => some 0x048
  | .cfg f => some (0x050 + cfgOffset f)
  | .act f => some (0x090 + cfgOffset f)
  | .wcount => some 0x100
  | .framesReceived => some 0x108
  | .bytesReceived => some 0x110
  | .framesDropped => some 0x118
  | .dropReason => some 0x120
  | .irqStatus => some 0x128
  | .irqEnable => some 0x130
  | .pcmd p => if p < P.numReaders then some (0x1000 + 0x100 * p) else none
  | .pstatus p => if p < P.numReaders then some (0x1000 + 0x100 * p + 0x08) else none
  | .psnap p => if p < P.numReaders then some (0x1000 + 0x100 * p + 0x10) else none
  | .parg p .arg0 => if p < P.numReaders then some (0x1000 + 0x100 * p + 0x18) else none
  | .parg p .arg1 => if p < P.numReaders then some (0x1000 + 0x100 * p + 0x20) else none
  | .parg p .arg2 => if p < P.numReaders then some (0x1000 + 0x100 * p + 0x28) else none
  | .parg p .arg3 => if p < P.numReaders then some (0x1000 + 0x100 * p + 0x30) else none
  | .presultSample p => if p < P.numReaders then some (0x1000 + 0x100 * p + 0x38) else none
  | .plastBins p => if p < P.numReaders then some (0x1000 + 0x100 * p + 0x40) else none
  | .series p arr k =>
    if p < P.numReaders ∧ k < P.maxBins then some (0x00100000 * (p + 1) + 0x40000 * arr.code + 8 * k) else none

/-- The registers whose access is RO in R112. -/
def Reg.readOnly : Reg → Bool
  | .id => true
  | .capacity => true
  | .maxSpf => true
  | .maxBins => true
  | .features => true
  | .maxCaplen => true
  | .ctrl => false
  | .ctrlStatus => true
  | .cfg _ => false
  | .act _ => true
  | .wcount => true
  | .framesReceived => true
  | .bytesReceived => true
  | .framesDropped => true
  | .dropReason => true
  | .irqStatus => false
  | .irqEnable => false
  | .pcmd _ => false
  | .pstatus _ => true
  | .psnap _ => true
  | .parg _ _ => false
  | .presultSample _ => true
  | .plastBins _ => true
  | .series _ _ _ => false

/-- The engine is publishing a packet that FRAMES_RECEIVED has counted (R209). -/
def Engine.countedFrame (e : Engine) : Prop := ∃ k frame stage, e = .publish k frame stage ∧ stage ≠ .countFrame

/-- The engine is publishing a packet of on-wire length `wirelen` that BYTES_RECEIVED has counted (R209). -/
def Engine.countedBytes (e : Engine) (wirelen : Word32) : Prop :=
  ∃ k frame stage, e = .publish k frame stage ∧ stage ≠ .countFrame ∧ stage ≠ .countBytes ∧ wirelen = k.wirelen

/-- `v` is a value that a host read of a register may return, written from R31 to R60, R83, R95 and R112 (a write-only
register reads 0). The two stats may miss the packet being published until a read has seen it (R46, R95, log 13). A
register of a port is said for the port the state has; a series entry of a busy port is unconstrained, one that nothing has
written since reset has the free value of log 9. -/
def State.mayRead (s : State) (v : Word64) : Reg → Prop
  | .id => v = 0x0000000755445053
  | .capacity => v = BitVec.ofNat 64 s.params.capacity
  | .maxSpf => v = BitVec.ofNat 64 s.params.maxSpf
  | .maxBins => v = BitVec.ofNat 64 s.params.maxBins
  | .features => ∀ j, v.getLsbD j =
      if j < 8 then s.params.numReaders.testBit j else if j = 8 then s.params.hpfPresent
      else if j = 9 then s.params.hpfPresent && decide (s.params.hpfY0 = .zero) else false
  | .maxCaplen => v = BitVec.ofNat 64 s.params.maxCaplen
  | .ctrl => v = 0
  | .ctrlStatus => v = s.ctrlStatusWord
  | .cfg .frameSize => v = s.staged.frameSize.setWidth 64
  | .cfg .header => v = s.staged.header.setWidth 64
  | .cfg .payload => v = s.staged.payload.setWidth 64
  | .cfg .tail => v = s.staged.tail.setWidth 64
  | .cfg .bps => v = s.staged.bps.setWidth 64
  | .cfg .spf => v = s.staged.spf.setWidth 64
  | .cfg .pack => v = s.staged.pack.setWidth 64
  | .act .frameSize => v = s.active.frameSize.setWidth 64
  | .act .header => v = s.active.header.setWidth 64
  | .act .payload => v = s.active.payload.setWidth 64
  | .act .tail => v = s.active.tail.setWidth 64
  | .act .bps => v = s.active.bps.setWidth 64
  | .act .spf => v = s.active.spf.setWidth 64
  | .act .pack => v = s.active.pack.setWidth 64
  | .wcount => v = s.wcount
  | .framesReceived =>
    v = s.framesReceived ∨ (s.framesSeen = false ∧ s.engine.countedFrame ∧ v = s.framesReceived - 1)
  | .bytesReceived =>
    v = s.bytesReceived ∨
    (s.bytesSeen = false ∧ ∃ n, s.engine.countedBytes n ∧ v = s.bytesReceived - n.setWidth 64)
  | .framesDropped => v = s.framesDropped
  | .dropReason => (s.dropReason = none → v = 0) ∧ ∀ r, s.dropReason = some r → v = r.code.setWidth 64
  | .irqStatus => v = s.irqStatus.setWidth 64
  | .irqEnable => v = s.irqEnable.setWidth 64
  | .pcmd _ => v = 0
  | .pstatus p => ∀ q, s.ports[p]? = some q → v = q.statusWord
  | .psnap p => ∀ q, s.ports[p]? = some q → v = q.snap
  | .parg p .arg0 => ∀ q, s.ports[p]? = some q → v = q.arg0
  | .parg p .arg1 => ∀ q, s.ports[p]? = some q → v = q.arg1
  | .parg p .arg2 => ∀ q, s.ports[p]? = some q → v = q.arg2
  | .parg p .arg3 => ∀ q, s.ports[p]? = some q → v = q.arg3
  | .presultSample p => ∀ q, s.ports[p]? = some q → v = q.sample
  | .plastBins p => ∀ q, s.ports[p]? = some q → v = q.lastBins
  | .series p arr k => ∀ q, s.ports[p]? = some q → q.cmd = none →
      v = ((q.series arr).read k).getD (Config.seriesFree s.seriesSeed p arr.code k)

/-- `v` is −n/d units rounded once: the magnitude is rounded to nearest, the sign is minus where that magnitude is not 0,
and an exact zero is +0.0 (R265, R266). The sign of a value that is not 0 and rounds to zero is left open (log 26). -/
def isNegRounded (v : F64) (n d : Nat) : Prop :=
  v.toNat % 2 ^ 63 = F64.roundMag n d ∧ (F64.roundMag n d ≠ 0 → v.getLsbD 63 = true) ∧ (n = 0 → v = 0)

/-- Runs `exec` of one instruction `n` times, as long as it answers a next state: an instruction that takes several
steps of its agent, with no other agent in between. -/
def execRun (i : Instr) : Nat → State → Result
  | 0, s => .next s
  | n + 1, s =>
    match exec i s with
    | .next s' => execRun i n s'
    | .fault r => .fault r
    | .refused r => .refused r

/-- Sample `ch` of frame `i` as the ring holds it (R44); 0 where nothing has been written. -/
def State.frameSample (s : State) (i ch : Nat) : Nat := ((s.ring.read (s.ringAddr i ch)).getD 0).toNat

/-- The samples of bin `b` in frame order, when no word read has been overwritten since the SNAPSHOT (R263, R264). -/
def State.binSamples (s : State) (ch start span bins b : Nat) : List Nat :=
  (List.range' (binLo start span bins b) (binHi start span bins b - binLo start span bins b)).map
    (fun j => s.frameSample j ch)

end Sys2Proof.Machine
end

