-- ==== Sys2Proof/Certificates/Slice0/Obligations.lean ====
section
/-!
DEFINITION. The statements about the model, from the numbered rules of spec/ (OBLIGATIONS.json lists them). A statement
about every state is a statement about every parameter choice (State.params, log 1), every interleaving
(State.schedule, log 3) and every settled choice (State.pick, log 11).
-/

open Sys2Proof Sys2Proof.Machine

/-! ### Encoding -/

/-- R110, R114, R115, R117: decoding the encoding of a well-formed instruction, in the space it arrives in, gives it
back, with every operand at every value. The ingress layout is the model's (DESIGN CHOICE, log 6). -/
def Obligations.DecodeOfEncodeIsTheInstruction : Prop :=
  ∀ i : Instr, i.wf = true → decode i.space (encode i) = .ok i

/-- R123: a command word has one meaning: what decodes in the CTRL space or a port's space is the encoding of the
instruction it decodes to. -/
def Obligations.CommandWordsHaveOneSpelling : Prop :=
  ∀ (sp : Space) (bs : List Byte) (i : Instr), sp ≠ .ingress → decode sp bs = .ok i → i.space = sp ∧ encode i = bs

/-- R121: the CTRL opcode map, over every 64-bit word. -/
def Obligations.CtrlOpcodeMap : Prop :=
  ∀ w : Word64, (decode .ctrl (bytesLE 8 w.toNat)).toOption =
    if w = 1 then some .start else if w = 2 then some .stop else if w = 3 then some .cfgCommit else none

/-- R122, R115, R120: the port opcode map, over every 64-bit word. -/
def Obligations.PortOpcodeMap : Prop :=
  ∀ (p : Nat) (w : Word64), (decode (.port p) (bytesLE 8 w.toNat)).toOption =
    let arr : SeriesArr :=
      if (w >>> 8).setWidth 2 = (0 : BitVec 2) then .x
      else if (w >>> 8).setWidth 2 = (1 : BitVec 2) then .ymin
      else if (w >>> 8).setWidth 2 = (2 : BitVec 2) then .ymax
      else .mean
    if w >>> 10 ≠ 0 then none
    else if w.setWidth 8 = (0x10 : BitVec 8) then some (.ema p arr)
    else if w.setWidth 8 = (0x11 : BitVec 8) then some (.sma p arr)
    else if w.setWidth 8 = (0x12 : BitVec 8) then some (.hpf p arr)
    else if w = 0x01 then some (.snapshot p)
    else if w = 0x02 then some (.getSample p)
    else if w = 0x03 then some (.envelope p)
    else none

/-- A few words written out from R114, R115, R117, R121 and R122 decode to what they stand for. -/
def Obligations.WrittenOutWordsDecode : Prop :=
  decode .ctrl [0x03, 0, 0, 0, 0, 0, 0, 0] = .ok .cfgCommit ∧
  decode (.port 1) [0x02, 0, 0, 0, 0, 0, 0, 0] = .ok (.getSample 1) ∧
  decode (.port 0) [0x10, 0x03, 0, 0, 0, 0, 0, 0] = .ok (.ema 0 .mean) ∧
  decode .ingress [0x02, 0, 0, 0, 0, 0, 0, 0, 0, 0, 0] = .ok .ingressSrcError

/-! ### Control -/

/-- R140, the whole command: its word, and its effect in every state. -/
def Obligations.StartBeginsASessionOrIsRefused : Prop :=
  decode .ctrl (bytesLE 8 0x01) = .ok .start ∧
  (∀ s : State, s.engine ≠ .stopped → exec .start s = .next { s with ctrlResult := .errState }) ∧
  (∀ s : State, s.engine = .stopped → exec .start s = .next
    { s with srcError := false, stopPending := false, grace := false, engine := .receive, ctrlResult := .ok })

/-- R142, the whole command. -/
def Obligations.StopRaisesTheFlag : Prop :=
  decode .ctrl (bytesLE 8 0x02) = .ok .stop ∧
  (∀ s : State, s.engine = .stopped → exec .stop s = .next { s with ctrlResult := .ok }) ∧
  (∀ s : State, s.engine = .receive → s.stopPending = false →
    exec .stop s = .next { s with grace := true, stopPending := true, ctrlResult := .ok }) ∧
  (∀ s : State, s.engine ≠ .stopped → (s.engine ≠ .receive ∨ s.stopPending = true) →
    exec .stop s = .next { s with stopPending := true, ctrlResult := .ok })

/-- R150, the whole command: refused while a session runs or a port is busy, refused with Validate's code, and
otherwise all seven fields at once, an empty ring, and W and every PSNAP 0. `ring := []` says that no word holds a
value, and `past := []` drops the model's record of older values (logs 8, 11). -/
def Obligations.CommitIsAllOrNothing : Prop :=
  decode .ctrl (bytesLE 8 0x03) = .ok .cfgCommit ∧
  (∀ s : State, s.engine ≠ .stopped → exec .cfgCommit s = .next { s with ctrlResult := .errState }) ∧
  (∀ (s : State) (q : Port), s.engine = .stopped → q ∈ s.ports → q.cmd ≠ none →
    exec .cfgCommit s = .next { s with ctrlResult := .errPortBusy }) ∧
  (∀ s : State, s.engine = .stopped → (∀ q ∈ s.ports, q.cmd = none) → s.staged.validate s.params.maxSpf ≠ .ok →
    exec .cfgCommit s = .next { s with ctrlResult := s.staged.validate s.params.maxSpf }) ∧
  (∀ s : State, s.engine = .stopped → (∀ q ∈ s.ports, q.cmd = none) → s.staged.validate s.params.maxSpf = .ok →
    exec .cfgCommit s = .next
      { s with
        active := s.staged
        wcount := 0
        ring := []
        ports := s.ports.map (fun q => { q with snap := 0, past := [] })
        ctrlResult := .ok })

/-- R151: Validate returns the first failing check, on exact sums. -/
def Obligations.ValidateReturnsTheFirstFailure : Prop :=
  ∀ (maxSpf : Nat) (c : ParserConfig),
    let badPack := c.pack ≠ 0 ∧ c.pack ≠ 1
    let badSplit := c.header.toNat + c.payload.toNat + c.tail.toNat ≠ c.frameSize.toNat
    let badSpf := c.spf.toNat = 0 ∨ maxSpf < c.spf.toNat
    let badBps := (c.pack = 0 ∧ c.bps ≠ 10) ∨ (c.pack = 1 ∧ c.bps ≠ 16)
    let badGeometry :=
      (c.pack = 0 ∧ (c.payload.toNat % 5 ≠ 0 ∨ c.payload.toNat / 5 * 4 ≠ c.spf.toNat)) ∨
      (c.pack = 1 ∧ c.payload.toNat < 2 * c.spf.toNat)
    (badPack → c.validate maxSpf = .cfgBadPackMode) ∧
    (¬badPack → badSplit → c.validate maxSpf = .cfgBadSplit) ∧
    (¬badPack → ¬badSplit → badSpf → c.validate maxSpf = .cfgBadSpf) ∧
    (¬badPack → ¬badSplit → ¬badSpf → badBps → c.validate maxSpf = .cfgBadBps) ∧
    (¬badPack → ¬badSplit → ¬badSpf → ¬badBps → badGeometry → c.validate maxSpf = .cfgBadGeometry) ∧
    (¬badPack → ¬badSplit → ¬badSpf → ¬badBps → ¬badGeometry → c.validate maxSpf = .ok)

/-- R38, R150: a step changes the active configuration only where it is the host's write of CFG_COMMIT to CTRL, accepted
with the engine stopped and every port idle, or a reset. -/
def Obligations.OnlyACommitOrResetChangesTheConfiguration : Prop :=
  ∀ s t : State, step s = .next t →
    t.active = s.active ∨
    (t.active = s.staged ∧ s.engine = .stopped ∧ (∀ q ∈ s.ports, q.cmd = none) ∧
      s.staged.validate s.params.maxSpf = .ok ∧ t.wcount = 0 ∧
      ∃ pick rest, s.schedule = .host (.write 0x040 8 0x03) pick :: rest) ∨
    (∃ rest, s.schedule = .reset :: rest)

/-! ### Port protocol -/

/-- R246, acceptance: an idle port that is handed one of the six commands clears its status and latches the opcode, the
array field and the four operands; nothing else changes. HPF needs the unit. -/
def Obligations.IdlePortAcceptsACommand : Prop :=
  ∀ (i : Instr) (p : Nat) (op : BitVec 8) (arr : BitVec 2) (s : State) (q : Port),
    portParts i = some (p, op, arr) → (op = 0x12 → s.params.hpfPresent = true) →
    s.ports[p]? = some q → q.cmd = none →
    exec i s = .next
      { s with
        ports := s.ports.set p
          { q with
            done := false
            err := false
            overrun := false
            result := .ok
            cmd := some
              { op := op, arr := arr, a0 := q.arg0, a1 := q.arg1, a2 := q.arg2, a3 := q.arg3, work := .accepted } } }

/-- R246, R4: with the unit absent an idle port completes HPF at once with ERR_FEATURE, and nothing but its status
changes. -/
def Obligations.AbsentHighPassReportsErrFeature : Prop :=
  ∀ (p : Nat) (arr : SeriesArr) (s : State) (q : Port),
    s.params.hpfPresent = false → s.ports[p]? = some q → q.cmd = none →
    exec (.hpf p arr) s = .next
      { s with
        ports := s.ports.set p
          { q with done := false, err := true, overrun := false, result := .errFeature } }

/-- R307, R246: a host write of any word to PCMD of a busy port is discarded and sets OVERRUN; the command in flight
is as before. -/
def Obligations.BusyPortDiscardsTheWordWithOverrun : Prop :=
  ∀ (s : State) (p pick : Nat) (q : Port) (w : Word64) (rest : List Action),
    p < s.params.numReaders → p < 255 → s.ports[p]? = some q → q.cmd ≠ none →
    s.schedule = .host (.write (BitVec.ofNat 32 (0x1000 + 0x100 * p)) 8 w) pick :: rest →
    step s = .next
      { s with
        schedule := rest
        pick := pick
        busResp := .data 0
        ports := s.ports.set p { q with overrun := true } }

/-- R114, R115, R305: a CTRL write of a word that is no command has no effect but CTRL_RESULT ← ERR_OPCODE; an idle port
that is written such a word completes at once with ERR_OPCODE, OVERRUN cleared by the acceptance. Nothing else
changes. -/
def Obligations.IllegalWordsReportErrOpcode : Prop :=
  (∀ (s : State) (pick : Nat) (w : Word64) (rest : List Action),
    (∀ i, decode .ctrl (bytesLE 8 w.toNat) ≠ .ok i) →
    s.schedule = .host (.write 0x040 8 w) pick :: rest →
    step s = .next { s with schedule := rest, pick := pick, busResp := .data 0, ctrlResult := .errOpcode }) ∧
  (∀ (s : State) (p pick : Nat) (q : Port) (w : Word64) (rest : List Action),
    p < s.params.numReaders → p < 255 → s.ports[p]? = some q → q.cmd = none →
    (∀ i, decode (.port p) (bytesLE 8 w.toNat) ≠ .ok i) →
    s.schedule = .host (.write (BitVec.ofNat 32 (0x1000 + 0x100 * p)) 8 w) pick :: rest →
    step s = .next
      { s with
        schedule := rest
        pick := pick
        busResp := .data 0
        ports := s.ports.set p
          { q with done := false, err := true, overrun := false, result := .errOpcode } })

/-- R242, R317: a step of a port command changes nothing but its own port, the model's draw counter, and (where the
port does not exist) the bus response. -/
def Obligations.PortCommandsTouchOnlyTheirPort : Prop :=
  ∀ (i : Instr) (p : Nat) (s t : State), i.port? = some p → exec i s = .next t →
    (∃ d r, t = { s with ports := t.ports, draws := d, busResp := r }) ∧
    t.ports.length = s.ports.length ∧ ∀ p', p' ≠ p → t.ports[p']? = s.ports[p']?

/-! ### The ring's readers -/

/-- R243, the whole command on a port that executes it: PSNAP takes W and the command completes. `past := []` starts
the model's record of racing values at this instant (R92, log 11). -/
def Obligations.SnapshotTakesTheWriteCounter : Prop :=
  ∀ (p : Nat) (s : State) (q : Port) (c : Command),
    s.ports[p]? = some q → q.cmd = some c → c.op = 0x01 → c.arr = 0 →
    exec (.snapshot p) s = .next
      { s with
        ports := s.ports.set p
          { q with snap := s.wcount, past := [], cmd := none, done := true, err := false, result := .ok } }

/-- R244, the whole command on a port that executes it: ERR_INDEX, then ERR_CHANNEL, then one RingRead (R92, as the
model's ring read gives it) of word `(i mod C)*cfg.spf + ch`, zero-extended into PRESULT_SAMPLE. -/
def Obligations.GetSampleChecksThenReadsOneWord : Prop :=
  ∀ (p : Nat) (s : State) (q : Port) (c : Command),
    s.ports[p]? = some q → q.cmd = some c → c.op = 0x02 → c.arr = 0 →
    let i := c.a0.toNat
    let ch := c.a1.toNat
    let snap := q.snap.toNat
    let a := (i % s.params.capacity) * s.active.spf.toNat + ch
    (¬(i < snap ∧ snap - i ≤ s.params.capacity) →
      exec (.getSample p) s = .next
        { s with ports := s.ports.set p { q with cmd := none, done := false, err := true, result := .errIndex } }) ∧
    (i < snap → snap - i ≤ s.params.capacity → s.active.spf.toNat ≤ ch →
      exec (.getSample p) s = .next
        { s with ports := s.ports.set p { q with cmd := none, done := false, err := true, result := .errChannel } }) ∧
    (i < snap → snap - i ≤ s.params.capacity → ch < s.active.spf.toNat →
      exec (.getSample p) s = .next
        { s with
          draws := s.draws + s.ringDraws q a
          ports := s.ports.set p
            { q with
              past := (s.afterRingRead q a).past
              sample := (s.ringValue q a).setWidth 64
              cmd := none
              done := true
              err := false
              result := .ok } })

/-- R94, R244: where the writer has overwritten no word read since the SNAPSHOT, GET_SAMPLE of a valid index and channel
returns the sample the ring holds, and nothing else changes. -/
def Obligations.GetSampleIsExactWithoutAWriter : Prop :=
  ∀ (p : Nat) (s : State) (q : Port) (c : Command) (v : Word16),
    s.ports[p]? = some q → q.cmd = some c → c.op = 0x02 → c.arr = 0 →
    c.a0.toNat < q.snap.toNat → q.snap.toNat - c.a0.toNat ≤ s.params.capacity → c.a1.toNat < s.active.spf.toNat →
    s.ring.read ((c.a0.toNat % s.params.capacity) * s.active.spf.toNat + c.a1.toNat) = some v →
    (∀ e ∈ q.past, e.1 ≠ (c.a0.toNat % s.params.capacity) * s.active.spf.toNat + c.a1.toNat) →
    exec (.getSample p) s = .next
      { s with
        ports := s.ports.set p
          { q with sample := v.setWidth 64, cmd := none, done := true, err := false, result := .ok } }

/-- R92: the values a RingRead may return are the word's current value and those it held since the port's SNAPSHOT:
a SNAPSHOT leaves only the current one, a RingWrite adds its value to those of its word and leaves the others', every
value held is returned under some choice, and every read returns a value held. -/
def Obligations.RacingReadReturnsAnyValueHeldSinceTheSnapshot : Prop :=
  (∀ (p a : Nat) (s t : State) (q q' : Port) (c : Command),
    s.ports[p]? = some q → q.cmd = some c → c.op = 0x01 → c.arr = 0 → exec (.snapshot p) s = .next t →
    t.ports[p]? = some q' → t.heldValues q' a = [s.ring.read a]) ∧
  (∀ (s : State) (p a b : Nat) (v : Word16) (q q' : Port),
    s.ports[p]? = some q → (s.ringWrite a v).ports[p]? = some q' →
    (s.ringWrite a v).heldValues q' b = if b = a then some v :: s.heldValues q a else s.heldValues q b) ∧
  (∀ (s : State) (q : Port) (a n : Nat) (v : Word16),
    (s.heldValues q a)[n]? = some (some v) → ({ s with pick := n } : State).ringValue q a = v) ∧
  (∀ (s : State) (q : Port) (a : Nat),
    (∀ v ∈ s.heldValues q a, v ≠ none) → some (s.ringValue q a) ∈ s.heldValues q a)

/-- R93: after a RingRead of a word, the port's later reads of it may return the value read or a newer one, and no
older one; its reads of other words are as before. `heldValues` lists newest first. -/
def Obligations.SecondReadOfAWordIsNoOlder : Prop :=
  ∀ (s : State) (q : Port) (a : Nat),
    s.heldValues (s.afterRingRead q a) a = (s.heldValues q a).take (s.ringChoice q a + 1) ∧
    ∀ b, b ≠ a → s.heldValues (s.afterRingRead q a) b = s.heldValues q b

/-! ### ENVELOPE -/

/-- R260, R261: the operand checks in their order, and the operands that pass them. A window or rate is good where it is
finite and not below 0: a non-negative pattern below that of +inf, or −0.0 ("−0.0 compares equal to 0.0 and is accepted
as zero"). A refused ENVELOPE changes nothing but its port's status; what an accepted one does are the statements with the
hypothesis envelopeError = none. -/
def Obligations.EnvelopeRefusesBadOperands : Prop :=
  ∀ (p : Nat) (s : State) (q : Port) (c : Command),
    s.ports[p]? = some q → q.cmd = some c → c.op = 0x03 → c.arr = 0 → c.work = .accepted →
    let refusedWith := fun (code : ResultCode) =>
      exec (.envelope p) s = .next
        { s with ports := s.ports.set p { q with cmd := none, done := false, err := true, result := code } }
    let good := fun (w : Word64) => w.toNat < 0x7FF0000000000000 ∨ w = 0x8000000000000000
    (s.active.spf.toNat ≤ c.a0.toNat → refusedWith .errChannel) ∧
    (c.a0.toNat < s.active.spf.toNat → (c.a3.toNat = 0 ∨ s.params.maxBins < c.a3.toNat) → refusedWith .errBins) ∧
    (c.a0.toNat < s.active.spf.toNat → 0 < c.a3.toNat → c.a3.toNat ≤ s.params.maxBins → ¬(good c.a1 ∧ good c.a2) →
      refusedWith .errWindow) ∧
    (c.a0.toNat < s.active.spf.toNat → 0 < c.a3.toNat → c.a3.toNat ≤ s.params.maxBins → good c.a1 → good c.a2 →
      envelopeError s.params s.active.spf.toNat c = none)

/-- R266: with span 0 the command completes with no ring read: zeros, x[b] = RNE(ws·(b − bins)/bins), entries from
`bins` on as before, PLAST_BINS = bins. (The sign of an x that is not 0 and rounds to zero is free, log 26.) -/
def Obligations.EnvelopeOfNoFramesIsTheDegenerateCase : Prop :=
  ∀ (p : Nat) (s : State) (q : Port) (c : Command),
    s.ports[p]? = some q → q.cmd = some c → c.op = 0x03 → c.arr = 0 → c.work = .accepted →
    envelopeError s.params s.active.spf.toNat c = none →
    envelopeSpan (min q.snap.toNat s.params.capacity) c.a1 c.a2 = 0 →
    ∃ mx mymin mymax mmean : Memory 64,
      exec (.envelope p) s = .next
        { s with
          ports := s.ports.set p
            { q with
              x := mx
              ymin := mymin
              ymax := mymax
              mean := mmean
              lastBins := c.a3
              cmd := none
              done := true
              err := false
              result := .ok } } ∧
      (∀ b, b < c.a3.toNat →
        (∃ v, mx.read b = some v ∧ isNegRounded v (F64.units c.a1 * (c.a3.toNat - b)) c.a3.toNat) ∧
        mymin.read b = some 0 ∧ mymax.read b = some 0 ∧ mmean.read b = some 0) ∧
      (∀ k, c.a3.toNat ≤ k →
        mx.read k = q.x.read k ∧ mymin.read k = q.ymin.read k ∧ mymax.read k = q.ymax.read k ∧
        mmean.read k = q.mean.read k)

/-- R263: the bins of a span: their bounds are the floors of the exact rationals, an empty bin is forced to one frame;
each is non-empty and lies in [start, start + span), they do not decrease, a bin ends
where the next begins unless it was forced, and together they cover the span. -/
def Obligations.BinsCoverTheSpan : Prop :=
  ∀ start span bins : Nat, 0 < span → 0 < bins →
    (∀ b, binLo start span bins b = start + b * span / bins ∧
      (start + b * span / bins < start + (b + 1) * span / bins →
        binHi start span bins b = start + (b + 1) * span / bins) ∧
      (start + (b + 1) * span / bins = start + b * span / bins →
        binHi start span bins b = start + b * span / bins + 1)) ∧
    (∀ b, b < bins →
      start ≤ binLo start span bins b ∧ binLo start span bins b < binHi start span bins b ∧
      binHi start span bins b ≤ start + span ∧ binLo start span bins b ≤ binLo start span bins (b + 1) ∧
      (binLo start span bins b < binLo start span bins (b + 1) →
        binHi start span bins b = binLo start span bins (b + 1)) ∧
      (binLo start span bins b = binLo start span bins (b + 1) →
        binHi start span bins b = binLo start span bins b + 1)) ∧
    (∀ j, start ≤ j → j < start + span → ∃ b, b < bins ∧ binLo start span bins b ≤ j ∧ j < binHi start span bins b)

/-- R262: the span is floor(v + 1/2) of the exact product's rounding v, bounded by the frames available, and all of
those for a product of +inf. -/
def Obligations.SpanRoundsHalvesAwayFromZero : Prop :=
  ∀ (avail : Nat) (ws fps : F64),
    (F64.mul ws fps = 0x7FF0000000000000 → envelopeSpan avail ws fps = avail) ∧
    (F64.isFinite (F64.mul ws fps) = true → ∀ n : Nat,
      2 * n * F64.unitScale ≤ 2 * F64.units (F64.mul ws fps) + F64.unitScale →
      2 * F64.units (F64.mul ws fps) + F64.unitScale < 2 * (n + 1) * F64.unitScale →
      envelopeSpan avail ws fps = min n avail)

/-- R260, R263 to R265, R267, R269: on a port that has accepted an ENVELOPE with good operands and a span of at least one
frame, with no RingWrite since its SNAPSHOT (`past`, the model's record of them, is empty, log 11), the command runs to completion
in one step for each sample and a completion step, and each bin holds the exact minimum and maximum and the once-rounded
mean of the samples the ring holds for its frames, and its time; entries from `bins` on and everything outside the port are
as before. (The sign of an x that rounds to zero is free, log 26.) -/
def Obligations.EnvelopeOfAnIdleWriterIsExact : Prop :=
  ∀ (p : Nat) (s : State) (q : Port) (c : Command),
    s.Inv → s.ports[p]? = some q → q.cmd = some c → c.op = 0x03 → c.arr = 0 → c.work = .accepted → q.past = [] →
    envelopeError s.params s.active.spf.toNat c = none →
    let bins := c.a3.toNat
    let span := envelopeSpan (min q.snap.toNat s.params.capacity) c.a1 c.a2
    let start := q.snap.toNat - span
    0 < span →
    let reads := ((List.range bins).map (fun b => (s.binSamples c.a0.toNat start span bins b).length)).sum
    ∃ mx mymin mymax mmean : Memory 64,
      execRun (.envelope p) (reads + 1) s = .next
        { s with
          ports := s.ports.set p
            { q with
              x := mx
              ymin := mymin
              ymax := mymax
              mean := mmean
              lastBins := c.a3
              cmd := none
              done := true
              err := false
              result := .ok } } ∧
      (∀ b, b < bins →
        let samples := s.binSamples c.a0.toNat start span bins b
        (∃ v, mx.read b = some v ∧ isNegRounded v (F64.units c.a1 * (2 * bins - (2 * b + 1))) (2 * bins)) ∧
        mmean.read b = some (F64.ofRat false samples.sum samples.length) ∧
        ∃ lo hi, lo ∈ samples ∧ hi ∈ samples ∧ (∀ v ∈ samples, lo ≤ v ∧ v ≤ hi) ∧
          mymin.read b = some (F64.ofNat lo) ∧ mymax.read b = some (F64.ofNat hi)) ∧
      (∀ k, bins ≤ k →
        mx.read k = q.x.read k ∧ mymin.read k = q.ymin.read k ∧ mymax.read k = q.ymax.read k ∧
        mmean.read k = q.mean.read k)

/-- R268: "For every bin, ymin[b] ≤ mean[b] ≤ ymax[b]": the once-rounded mean of sample values lies between any lower
and upper bound of them, in binary64. -/
def Obligations.RoundedMeanLiesBetweenTheExtremes : Prop :=
  ∀ (l : List Nat) (lo hi : Nat), l ≠ [] → hi < 65536 → (∀ v ∈ l, lo ≤ v ∧ v ≤ hi) →
    F64.le (F64.ofNat lo) (F64.ofRat false l.sum l.length) = true ∧
    F64.le (F64.ofRat false l.sum l.length) (F64.ofNat hi) = true

/-- R13: RNE. The finite result of rounding n/d units of 2^-1074 is nearest among all finite binary64 values, and at a
tie its pattern is even; the result is infinite exactly from the midpoint above the largest finite value on. -/
def Obligations.RoundingIsToNearestTiesToEven : Prop :=
  ∀ n d : Nat, 0 < d →
    (F64.roundMag n d < F64.infMag → ∀ a : F64, F64.isFinite a = true →
      let err := fun u : Nat => ((u * d : Nat) - (n : Nat) : Int).natAbs
      let r := F64.units (F64.ofMag false (F64.roundMag n d))
      err r ≤ err (F64.units a) ∧ (err r = err (F64.units a) → F64.units a ≠ r → F64.roundMag n d % 2 = 0)) ∧
    (F64.roundMag n d = F64.infMag ↔ d * ((2 ^ 54 - 1) * 2 ^ 2044) ≤ n)

/-- R13: what a bit pattern stands for, and the binary64 operations: each finite result is the exact one rounded once
(RoundingIsToNearestTiesToEven says what `roundMag` is), with the IEEE 754 special cases for infinities, zeros and NaN, and
the comparisons. A NaN result is some NaN (log 12). -/
def Obligations.FloatOperationsRoundTheExactResult : Prop :=
  (∀ a : F64,
    let e := a.toNat / 2 ^ 52 % 2 ^ 11
    let m := a.toNat % 2 ^ 52
    F64.units a = (if e = 0 then m else (2 ^ 52 + m) * 2 ^ (e - 1)) ∧
    F64.signedUnits a = (if a.getLsbD 63 then -(F64.units a : Int) else (F64.units a : Int)) ∧
    (F64.isNaN a = true ↔ e = 2047 ∧ m ≠ 0) ∧ (F64.isInf a = true ↔ e = 2047 ∧ m = 0) ∧
    (F64.isFinite a = true ↔ e ≠ 2047) ∧ (F64.neg a).toNat = (a.toNat + 2 ^ 63) % 2 ^ 64) ∧
  (∀ (sgn : Bool) (n d : Nat), (F64.round sgn n d).toNat = (if sgn then 2 ^ 63 else 0) + F64.roundMag n d) ∧
  (∀ n : Nat, F64.ofNat n = F64.round false (n * 2 ^ 1074) 1) ∧
  (∀ a b : F64, F64.isFinite a = true → F64.isFinite b = true →
    let sgn := a.getLsbD 63 != b.getLsbD 63
    let sum := F64.signedUnits a + F64.signedUnits b
    let diff := F64.signedUnits a - F64.signedUnits b
    F64.add a b = (if sum = 0 then (if a.getLsbD 63 && b.getLsbD 63 then 0x8000000000000000 else 0)
      else F64.round (decide (sum < 0)) sum.natAbs 1) ∧
    F64.sub a b = (if diff = 0 then (if a.getLsbD 63 && !b.getLsbD 63 then 0x8000000000000000 else 0)
      else F64.round (decide (diff < 0)) diff.natAbs 1) ∧
    F64.mul a b = F64.round sgn (F64.units a * F64.units b) (2 ^ 1074) ∧
    (F64.units b ≠ 0 → F64.div a b = F64.round sgn (F64.units a * 2 ^ 1074) (F64.units b)) ∧
    (F64.units b = 0 → F64.units a ≠ 0 → F64.div a b = F64.inf sgn) ∧
    (F64.units b = 0 → F64.units a = 0 → F64.isNaN (F64.div a b) = true) ∧
    (F64.lt a b = true ↔ F64.signedUnits a < F64.signedUnits b) ∧
    (F64.le a b = true ↔ F64.signedUnits a ≤ F64.signedUnits b)) ∧
  (∀ a b : F64, F64.isInf a = true → F64.isFinite b = true →
    let sgn := a.getLsbD 63 != b.getLsbD 63
    F64.add a b = a ∧ F64.add b a = a ∧ F64.sub a b = a ∧ F64.sub b a = F64.neg a ∧
    F64.div a b = F64.inf sgn ∧ F64.div b a = (if sgn then 0x8000000000000000 else 0) ∧
    (F64.units b ≠ 0 → F64.mul a b = F64.inf sgn ∧ F64.mul b a = F64.inf sgn) ∧
    (F64.units b = 0 → F64.isNaN (F64.mul a b) = true ∧ F64.isNaN (F64.mul b a) = true)) ∧
  (∀ a b : F64, F64.isInf a = true → F64.isInf b = true →
    let sgn := a.getLsbD 63 != b.getLsbD 63
    F64.mul a b = F64.inf sgn ∧ F64.isNaN (F64.div a b) = true ∧
    (sgn = false → F64.add a b = a ∧ F64.isNaN (F64.sub a b) = true) ∧
    (sgn = true → F64.sub a b = a ∧ F64.isNaN (F64.add a b) = true)) ∧
  (∀ a b : F64, F64.isInf a = true → F64.isNaN b = false →
    F64.lt a b = (a.getLsbD 63 && b != a) ∧ F64.lt b a = (!a.getLsbD 63 && b != a) ∧
    F64.le a b = (a.getLsbD 63 || b == a) ∧ F64.le b a = (!a.getLsbD 63 || b == a)) ∧
  (∀ a b : F64, F64.isNaN a = true ∨ F64.isNaN b = true →
    F64.isNaN (F64.add a b) = true ∧ F64.isNaN (F64.sub a b) = true ∧ F64.isNaN (F64.mul a b) = true ∧
    F64.isNaN (F64.div a b) = true ∧ F64.lt a b = false ∧ F64.le a b = false) ∧
  (∀ sgn : Bool, F64.inf sgn = if sgn then 0xFFF0000000000000 else 0x7FF0000000000000) ∧
  (∀ a b : F64, F64.maxf a b = if F64.lt a b then b else a)

/-! ### Smoothers -/

/-- R280, the whole command on a port that executes it. `run` is the filter's running value s, `old` the entries before;
a NaN is stored with a free sign and payload (settle, log 12). -/
def Obligations.EmaFollowsItsRecurrence : Prop :=
  ∀ (p : Nat) (arr : SeriesArr) (s : State) (q : Port) (c : Command),
    s.ports[p]? = some q → q.cmd = some c → c.op = 0x10 → c.arr = BitVec.ofNat 2 arr.code →
    let n := c.a2.toNat
    let old := s.seriesEntry p q arr
    let alpha := F64.sub 0x3FF0000000000000
      (s.params.exp (F64.neg (F64.div c.a0 (F64.maxf (F64.div c.a1 0x408F400000000000) 0x3EB0C6F7A0B5ED8D))))
    (s.params.maxBins < n →
      exec (.ema p arr) s = .next
        { s with ports := s.ports.set p { q with cmd := none, done := false, err := true, result := .errLength } }) ∧
    (n ≤ s.params.maxBins → ∀ run : Nat → F64, run 0 = old 0 →
      (∀ i, run (i + 1) =
        F64.add (F64.mul alpha (old (i + 1))) (F64.mul (F64.sub 0x3FF0000000000000 alpha) (run i))) →
      ∃ m : Memory 64,
        exec (.ema p arr) s = .next
          { s with
            draws := s.draws + (n - 1)
            ports := s.ports.set p
              { q.setSeries arr m with cmd := none, done := true, err := false, result := .ok } } ∧
        ∀ k, m.read k =
          if 1 ≤ k ∧ k < n then some (F64.settle (s.draws + (k - 1)) (run k)) else (q.series arr).read k)

/-- R283, the whole command on a port that executes it: the width forced to at least 1 and odd (2·half + 1), and each
output the left-to-right sum of the unmodified entries of the clipped window over its count. A width of 1 is the identity
("w = 1 is the identity, including on −0.0"), on a NaN too. -/
def Obligations.SmaAveragesTheClippedWindow : Prop :=
  ∀ (p : Nat) (arr : SeriesArr) (s : State) (q : Port) (c : Command),
    s.ports[p]? = some q → q.cmd = some c → c.op = 0x11 → c.arr = BitVec.ofNat 2 arr.code →
    let n := c.a1.toNat
    let w := c.a0.toInt
    let old := s.seriesEntry p q arr
    (s.params.maxBins < n →
      exec (.sma p arr) s = .next
        { s with ports := s.ports.set p { q with cmd := none, done := false, err := true, result := .errLength } }) ∧
    (n ≤ s.params.maxBins → ∀ half : Nat,
      (w < 1 → half = 0) → (1 ≤ w → w % 2 = 1 → 2 * (half : Int) + 1 = w) →
      (1 ≤ w → w % 2 = 0 → 2 * (half : Int) + 1 = w + 1) →
      ∃ m : Memory 64,
        exec (.sma p arr) s = .next
          { s with
            draws := if half = 0 then s.draws else s.draws + n
            ports := s.ports.set p
              { q.setSeries arr m with cmd := none, done := true, err := false, result := .ok } } ∧
        ∀ k, m.read k =
          if k < n then
            let lo := k - half
            let hi := min (n - 1) (k + half)
            if half = 0 then some (old k) else some (F64.settle (s.draws + k)
              (F64.div (((List.range' (lo + 1) (hi - lo)).map old).foldl F64.add (old lo)) (F64.ofNat (hi - lo + 1))))
          else (q.series arr).read k)

/-- R286, R287, the whole command on a port that executes it, under either value of HPF_Y0. -/
def Obligations.HighPassFollowsItsRecurrence : Prop :=
  ∀ (p : Nat) (arr : SeriesArr) (s : State) (q : Port) (c : Command),
    s.ports[p]? = some q → q.cmd = some c → c.op = 0x12 → c.arr = BitVec.ofNat 2 arr.code →
    let n := c.a2.toNat
    let old := s.seriesEntry p q arr
    let tau := F64.div 0x3FF0000000000000 (F64.mul 0x401921FB54442D18 c.a1)
    let alpha := F64.div tau (F64.add tau c.a0)
    (s.params.maxBins < n →
      exec (.hpf p arr) s = .next
        { s with ports := s.ports.set p { q with cmd := none, done := false, err := true, result := .errLength } }) ∧
    (n ≤ s.params.maxBins → (F64.le c.a1 0 = true ∨ n = 0) →
      exec (.hpf p arr) s = .next
        { s with ports := s.ports.set p { q with cmd := none, done := true, err := false, result := .ok } }) ∧
    (n ≤ s.params.maxBins → F64.le c.a1 0 = false → 0 < n → ∀ y : Nat → F64,
      (s.params.hpfY0 = .series0 → y 0 = old 0) → (s.params.hpfY0 = .zero → y 0 = 0) →
      (∀ i, y (i + 1) = F64.mul alpha (F64.sub (F64.add (y i) (old (i + 1))) (old i))) →
      ∃ m : Memory 64,
        exec (.hpf p arr) s = .next
          { s with
            draws := s.draws + (n - 1)
            ports := s.ports.set p
              { q.setSeries arr m with cmd := none, done := true, err := false, result := .ok } } ∧
        ∀ k, m.read k =
          if k = 0 then some (y 0)
          else if k < n then some (F64.settle (s.draws + (k - 1)) (y k)) else (q.series arr).read k)

/-! ### LinkDemux -/

/-- R171, R172: k stacked VLAN tags put the network header at 14 + 4k; a tag stack that the capture cuts off is
DROP_LINK_TRUNCATED; any other final EtherType is DROP_NOT_IPV4. -/
def Obligations.VlanTagsMoveTheNetworkHeader : Prop :=
  ∀ (caplen : Nat) (d : List Byte) (k : Nat),
    (∀ j, j < k → be16 d (12 + 4 * j) = 0x8100 ∨ be16 d (12 + 4 * j) = 0x88A8) →
    (caplen < 14 → linkHeader 1 caplen d = .error .linkTruncated) ∧
    (14 + 4 * k ≤ caplen → be16 d (12 + 4 * k) = 0x0800 → linkHeader 1 caplen d = .ok (14 + 4 * k)) ∧
    (14 + 4 * k ≤ caplen → be16 d (12 + 4 * k) ≠ 0x0800 → be16 d (12 + 4 * k) ≠ 0x8100 →
      be16 d (12 + 4 * k) ≠ 0x88A8 → linkHeader 1 caplen d = .error .notIpv4) ∧
    (0 < k → 10 + 4 * k ≤ caplen → caplen < 14 + 4 * k → linkHeader 1 caplen d = .error .linkTruncated)

/-- R173, R174, R175, R179: the fixed link headers and the unrecognized tags. -/
def Obligations.FixedLinkHeaders : Prop :=
  ∀ (tag : Word16) (caplen : Nat) (d : List Byte),
    (tag = 2 → linkHeader tag caplen d = if caplen < 16 then .error .linkTruncated else .ok 16) ∧
    (tag = 3 → linkHeader tag caplen d = if caplen < 20 then .error .linkTruncated else .ok 20) ∧
    (tag = 4 → linkHeader tag caplen d = .ok 0) ∧
    (tag ≠ 1 → tag ≠ 2 → tag ≠ 3 → tag ≠ 4 → linkDemux tag caplen d = .error .linkUnsupported)

/-- R170, R176, R177, R178: a link header that fails decides the reason; the IPv4 and UDP checks in their order from the
network header on, and the payload found. -/
def Obligations.Ipv4AndUdpChecksInOrder : Prop :=
  (∀ (tag : Word16) (caplen : Nat) (d : List Byte) (r : DropReason),
    linkHeader tag caplen d = .error r → linkDemux tag caplen d = .error r) ∧
  ∀ (tag : Word16) (caplen l3 : Nat) (d : List Byte), linkHeader tag caplen d = .ok l3 →
    let first := (byteAt d l3).toNat
    let u := l3 + 4 * (first % 16)
    let ulen := be16 d (u + 4)
    let badVersion := first / 16 ≠ 4
    let badIhl := first % 16 < 5
    let notUdp := (byteAt d (l3 + 9)).toNat ≠ 17
    (caplen < l3 + 20 → linkDemux tag caplen d = .error .ipTruncated) ∧
    (l3 + 20 ≤ caplen → badVersion → linkDemux tag caplen d = .error .ipVersion) ∧
    (l3 + 20 ≤ caplen → ¬badVersion → badIhl → linkDemux tag caplen d = .error .ipIhl) ∧
    (l3 + 20 ≤ caplen → ¬badVersion → ¬badIhl → notUdp → linkDemux tag caplen d = .error .notUdp) ∧
    (l3 + 20 ≤ caplen → ¬badVersion → ¬badIhl → ¬notUdp → caplen < u + 8 →
      linkDemux tag caplen d = .error .udpTruncated) ∧
    (l3 + 20 ≤ caplen → ¬badVersion → ¬badIhl → ¬notUdp → u + 8 ≤ caplen → ulen < 8 →
      linkDemux tag caplen d = .error .udpLength) ∧
    (l3 + 20 ≤ caplen → ¬badVersion → ¬badIhl → ¬notUdp → u + 8 ≤ caplen → 8 ≤ ulen →
      linkDemux tag caplen d = .ok (u + 8, min (ulen - 8) (caplen - (u + 8))))

/-- R178, R181: the payload LinkDemux finds lies inside the captured bytes, and LinkDemux reads no byte at or past
caplen: its result is the same for any two packets that agree below caplen. -/
def Obligations.DemuxStaysInsideTheCapture : Prop :=
  (∀ (tag : Word16) (caplen off len : Nat) (d : List Byte),
    linkDemux tag caplen d = .ok (off, len) → 28 ≤ off ∧ off + len ≤ caplen) ∧
  (∀ (tag : Word16) (caplen : Nat) (d d' : List Byte),
    (∀ k, k < caplen → byteAt d k = byteAt d' k) → linkDemux tag caplen d = linkDemux tag caplen d')

/-! ### BitUnpacker -/

/-- R221, R222, R223, R224: under a configuration that passed Validate, a frame of captured bytes unpacks to exactly spf
samples, each below 2^bps, and each is the formula's value of its payload bytes. -/
def Obligations.UnpackedSamplesFollowTheFormulas : Prop :=
  ∀ (maxSpf off : Nat) (c : ParserConfig) (d : List Byte),
    c.validate maxSpf = .ok → off + c.frameSize.toNat ≤ d.length →
    let byte := fun k => byteAt d (off + c.header.toNat + k)
    ∃ frame : List Word16, unpackFrame c off d = some frame ∧ frame.length = c.spf.toNat ∧
      (∀ v ∈ frame, v.toNat < 2 ^ c.bps.toNat) ∧
      (c.pack = 0 → ∀ g, g < c.spf.toNat / 4 →
        frame.getD (4 * g) 0 = (byte (5 * g)).setWidth 16 ||| ((byte (5 * g + 4) &&& 0x03).setWidth 16 <<< 8) ∧
        frame.getD (4 * g + 1) 0 = (byte (5 * g + 1)).setWidth 16 ||| ((byte (5 * g + 4) &&& 0x0C).setWidth 16 <<< 6) ∧
        frame.getD (4 * g + 2) 0 = (byte (5 * g + 2)).setWidth 16 ||| ((byte (5 * g + 4) &&& 0x30).setWidth 16 <<< 4) ∧
        frame.getD (4 * g + 3) 0 = (byte (5 * g + 3)).setWidth 16 ||| ((byte (5 * g + 4) &&& 0xC0).setWidth 16 <<< 2)) ∧
      (c.pack = 1 → ∀ k, k < c.spf.toNat →
        frame.getD k 0 = (byte (2 * k)).setWidth 16 ||| ((byte (2 * k + 1)).setWidth 16 <<< 8))

/-- R207, R223: two packets that agree on the payload bytes of the frame unpack alike: header, tail and everything
else are not read. -/
def Obligations.UnpackIgnoresHeaderAndTail : Prop :=
  ∀ (c : ParserConfig) (off : Nat) (d d' : List Byte),
    (∀ k, k < c.payload.toNat → d[off + c.header.toNat + k]? = d'[off + c.header.toNat + k]?) →
    unpackFrame c off d = unpackFrame c off d'

/-- R225: packing four samples in [0, 1023] with the inverse formula and unpacking the group gives them back. -/
def Obligations.PackedGroupRoundTrip : Prop :=
  ∀ t0 t1 t2 t3 : Word16, t0.toNat < 1024 → t1.toNat < 1024 → t2.toNat < 1024 → t3.toNat < 1024 →
    unpackGroup (t0.setWidth 8) (t1.setWidth 8) (t2.setWidth 8) (t3.setWidth 8)
      (((t0 >>> 8) &&& 3).setWidth 8 ||| (((t1 >>> 8) &&& 3).setWidth 8 <<< 2) |||
        (((t2 >>> 8) &&& 3).setWidth 8 <<< 4) ||| (((t3 >>> 8) &&& 3).setWidth 8 <<< 6)) = [t0, t1, t2, t3]

/-! ### The capture engine -/

/-- R202: a packet offered to an engine that can take it becomes its context; an oversized one goes to DROP. -/
def Obligations.PacketIsTakenInReceive : Prop :=
  ∀ (tag : Word16) (caplen wirelen : Word32) (data : List Byte) (s : State),
    s.engine = .receive → (s.stopPending = false ∨ s.grace = true) →
    (s.params.maxCaplen < caplen.toNat →
      exec (.ingressPacket tag caplen wirelen data) s =
        .next { s with grace := false, engine := .drop ⟨tag, caplen, wirelen, data⟩ .oversize }) ∧
    (caplen.toNat ≤ s.params.maxCaplen →
      exec (.ingressPacket tag caplen wirelen data) s =
        .next { s with grace := false, engine := .demux ⟨tag, caplen, wirelen, data⟩ })

/-- R205, R206: LENGTH_CHECK is strict equality; a drop counts one packet, records its reason, and the engine is back in
RECEIVE. -/
def Obligations.LengthCheckIsStrictAndDropsCountOnce : Prop :=
  ∀ (tag : Word16) (caplen wirelen : Word32) (data : List Byte) (s : State),
    (∀ off len : Nat, s.engine = .lengthCheck ⟨tag, caplen, wirelen, data⟩ off len →
      (len = s.active.frameSize.toNat →
        exec (.ingressPacket tag caplen wirelen data) s =
          .next { s with engine := .unpack ⟨tag, caplen, wirelen, data⟩ off len }) ∧
      (len ≠ s.active.frameSize.toNat →
        exec (.ingressPacket tag caplen wirelen data) s =
          .next { s with engine := .drop ⟨tag, caplen, wirelen, data⟩ .lengthMismatch })) ∧
    (∀ r : DropReason, s.engine = .drop ⟨tag, caplen, wirelen, data⟩ r →
      exec (.ingressPacket tag caplen wirelen data) s =
        .next { s with framesDropped := s.framesDropped + 1, dropReason := some r, engine := .receive })

/-- R240, R241: with every word of the slot written, the publish advances W by one and sets WC_ADV, in one step (log 14: the
model's choice; R241 writes them one after the other); before that, a step of the append writes the next word of slot
`w mod C` and neither W nor IRQ_STATUS moves. -/
def Obligations.AppendWritesThenPublishes : Prop :=
  ∀ (k : Packet) (frame : List Word16) (w : Word64) (ch : Nat) (s : State),
    s.engine = .publish k frame (.write w ch) →
    (ch < s.active.spf.toNat → ∃ t,
      exec (.ingressPacket k.tag k.caplen k.wirelen k.data) s = .next t ∧
      t.wcount = s.wcount ∧ t.irqStatus = s.irqStatus ∧ t.engine = .publish k frame (.write w (ch + 1)) ∧
      ∀ a, t.ring.read a =
        if a = (w.toNat % s.params.capacity) * s.active.spf.toNat + ch then some (frame.getD ch 0) else s.ring.read a) ∧
    (s.active.spf.toNat ≤ ch →
      exec (.ingressPacket k.tag k.caplen k.wirelen k.data) s =
        .next { s with wcount := w + 1, irqStatus := s.irqStatus ||| 1, engine := .publish k frame .finish })

/-- R203: a TIMEOUT or a KIND 3 event that is taken changes nothing but GRACE. -/
def Obligations.TimeoutAndKindThreeDoNothing : Prop :=
  ∀ (i : Instr) (s : State), i = .ingressTimeout ∨ i = .ingressKind3 → s.engine = .receive →
    (s.stopPending = false ∨ s.grace = true) → exec i s = .next { s with grace := false }

/-- R204: a SRC_ERROR event that is taken ends the session. -/
def Obligations.SourceErrorEndsTheSession : Prop :=
  ∀ s : State, s.engine = .receive → (s.stopPending = false ∨ s.grace = true) →
    exec .ingressSrcError s = .next
      { s with
        engine := .stopped
        stopPending := false
        srcError := true
        irqStatus := s.irqStatus ||| 2
        grace := false }

/-- R141, R200, R201: an event offered while the engine is not in RECEIVE, or is there with the stop flag raised and no
GRACE, is not taken: no state of the CORE changes. The engine's own step in RECEIVE is the exit where STOP_PENDING = 1,
and otherwise it waits. -/
def Obligations.TheStopFlagEndsTheSession : Prop :=
  ∀ (s : State) (rest : List Action),
    (∀ (i : Instr) (bytes : List Byte), s.schedule = .offer bytes :: rest → decode .ingress bytes = .ok i →
      (s.engine ≠ .receive ∨ (s.stopPending = true ∧ s.grace = false)) →
      step s = .next { s with schedule := rest }) ∧
    (s.schedule = .engine :: rest → s.engine = .receive → s.stopPending = true →
      step s = .next { s with schedule := rest, stopPending := false, grace := false, engine := .stopped }) ∧
    (s.schedule = .engine :: rest → s.engine = .receive → s.stopPending = false →
      step s = .next { s with schedule := rest })

/-- R200, R205, R206, R209, R210, R240, R241, R304: from DEMUX every packet is run to RECEIVE by the engine alone, and is
either published (exactly when LinkDemux recovers frame_size bytes) or dropped. Published: one frame and its on-wire bytes
counted, W advanced by one with WC_ADV set, the words of slot `W mod C` the frame's samples, every other word as before.
Dropped: one drop counted, its reason LinkDemux's or the length mismatch, nothing else counted, ring and W as before. No
port register changes either way (`past` is the model's record of overwritten values, log 11). -/
def Obligations.EveryPacketIsPublishedOrDropped : Prop :=
  ∀ (s : State) (k : Packet), s.Inv → s.engine = .demux k → s.wcount ≠ 0xFFFFFFFFFFFFFFFF →
    ∃ (n : Nat) (t : State),
      execRun (.ingressPacket k.tag k.caplen k.wirelen k.data) n s = .next t ∧ t.engine = .receive ∧
      t.active = s.active ∧ t.staged = s.staged ∧ t.stopPending = s.stopPending ∧ t.ctrlResult = s.ctrlResult ∧
      t.params = s.params ∧ t.srcError = s.srcError ∧ t.irqEnable = s.irqEnable ∧ t.grace = s.grace ∧
      t.ports.map (fun q => { q with past := [] }) = s.ports.map (fun q => { q with past := [] }) ∧
      (∀ off frame, linkDemux k.tag k.caplen.toNat k.data = .ok (off, s.active.frameSize.toNat) →
        unpackFrame s.active off k.data = some frame →
        t.framesReceived = s.framesReceived + 1 ∧ t.bytesReceived = s.bytesReceived + k.wirelen.setWidth 64 ∧
        t.wcount = s.wcount + 1 ∧ t.irqStatus = s.irqStatus ||| 1 ∧ t.framesDropped = s.framesDropped ∧
        t.dropReason = s.dropReason ∧
        (∀ ch, ch < s.active.spf.toNat →
          t.ring.read ((s.wcount.toNat % s.params.capacity) * s.active.spf.toNat + ch) = some (frame.getD ch 0)) ∧
        (∀ a, (∀ ch, ch < s.active.spf.toNat →
            a ≠ (s.wcount.toNat % s.params.capacity) * s.active.spf.toNat + ch) →
          t.ring.read a = s.ring.read a)) ∧
      ((∀ off, linkDemux k.tag k.caplen.toNat k.data ≠ .ok (off, s.active.frameSize.toNat)) →
        t.framesDropped = s.framesDropped + 1 ∧ t.framesReceived = s.framesReceived ∧
        t.bytesReceived = s.bytesReceived ∧ t.wcount = s.wcount ∧ t.irqStatus = s.irqStatus ∧ t.ring = s.ring) ∧
      (∀ r, linkDemux k.tag k.caplen.toNat k.data = .error r → t.dropReason = some r) ∧
      (∀ off len, linkDemux k.tag k.caplen.toNat k.data = .ok (off, len) → len ≠ s.active.frameSize.toNat →
        t.dropReason = some .lengthMismatch)

/-- R45, R94: as long as the ring is not rebuilt, a step changes no word of a frame that is younger than the oldest
retained one: while frame W is being appended, only slot `W mod C` is written. -/
def Obligations.StepsKeepEveryFrameButTheOldest : Prop :=
  ∀ s t : State, s.Inv → step s = .next t → s.wcount.toNat ≤ t.wcount.toNat →
    ∀ i ch, i < s.wcount.toNat → s.wcount.toNat - i < s.params.capacity → ch < s.active.spf.toNat →
      t.ring.read (t.ringAddr i ch) = s.ring.read (s.ringAddr i ch)

/-- R241, R242: a step leaves W as it is, or it is the engine's publish of the frame being appended and advances W by one
with WC_ADV set (in one step: log 14, the model's choice), or it is the host's write of CFG_COMMIT to CTRL, accepted with the
engine stopped, and zeroes W, or it is a reset. -/
def Obligations.WriteCounterMovesByOneOrIsRebuilt : Prop :=
  ∀ s t : State, s.Inv → step s = .next t →
    t.wcount = s.wcount ∨
    (t.wcount = s.wcount + 1 ∧ t.irqStatus = s.irqStatus ||| 1 ∧
      (∃ rest, s.schedule = .engine :: rest) ∧
      ∃ k frame, s.engine = .publish k frame (.write s.wcount s.active.spf.toNat)) ∨
    (t.wcount = 0 ∧ s.engine = .stopped ∧ t.active = s.staged ∧
      ∃ pick rest, s.schedule = .host (.write 0x040 8 0x03) pick :: rest) ∨
    (∃ rest, s.schedule = .reset :: rest)

/-! ### Steps, register space, reset -/

/-- R97, R110, R117, R246: a scheduled step whose bytes decode to an instruction runs exactly that instruction, in the
state with the step taken from the schedule, its choice number set, and (for a host write) the bus response given: a
CTRL write, a PCMD write to an idle port, an event the engine can take, the packet the engine holds, the command a port
holds. -/
def Obligations.StepRunsTheDecodedInstruction : Prop :=
  ∀ (s : State) (rest : List Action),
    (∀ (w : Word64) (pick : Nat) (i : Instr), s.schedule = .host (.write 0x040 8 w) pick :: rest →
      decode .ctrl (bytesLE 8 w.toNat) = .ok i →
      step s = exec i { s with schedule := rest, pick := pick, busResp := .data 0 }) ∧
    (∀ (p : Nat) (q : Port) (w : Word64) (pick : Nat) (i : Instr), p < s.params.numReaders → p < 255 →
      s.ports[p]? = some q → q.cmd = none →
      s.schedule = .host (.write (BitVec.ofNat 32 (0x1000 + 0x100 * p)) 8 w) pick :: rest →
      decode (.port p) (bytesLE 8 w.toNat) = .ok i →
      step s = exec i { s with schedule := rest, pick := pick, busResp := .data 0 }) ∧
    (∀ (bytes : List Byte) (i : Instr), s.schedule = .offer bytes :: rest → decode .ingress bytes = .ok i →
      s.engine = .receive → (s.stopPending = false ∨ s.grace = true) →
      step s = exec i { s with schedule := rest }) ∧
    (∀ k : Packet, s.schedule = .engine :: rest → s.engine.packet? = some k →
      step s = exec (.ingressPacket k.tag k.caplen k.wirelen k.data) { s with schedule := rest }) ∧
    (∀ (p pick : Nat) (q : Port) (c : Command) (i : Instr), s.schedule = .port p pick :: rest →
      s.ports[p]? = some q → q.cmd = some c →
      decode (.port p) (bytesLE 8 (c.op.toNat + 256 * c.arr.toNat)) = .ok i →
      step s = exec i { s with schedule := rest, pick := pick })

/-- R102, R82, R112, R306: a host read changes nothing of the CORE (only its response, and the model's choice and draw
numbers and its record of what a read has seen, log 13). A host access of another size, at an address that is no multiple
of 8, or to an unmapped address is a bus error, and no state of the CORE changes. A host write to a read-only register is
ignored without a bus error. -/
def Obligations.ReadsAndBadAccessesChangeNothing : Prop :=
  (∀ (s : State) (addr : Word32) (size pick : Nat) (rest : List Action),
    s.schedule = .host (.read addr size) pick :: rest →
    ∃ d f b resp, step s = .next
      { s with schedule := rest, pick := pick, draws := d, framesSeen := f, bytesSeen := b, busResp := resp }) ∧
  (∀ (s : State) (addr : Word32) (size pick : Nat) (v : Word64) (rest : List Action),
    (size ≠ 8 ∨ addr.toNat % 8 ≠ 0 ∨ regAt s.params addr.toNat = none) →
    (s.schedule = .host (.write addr size v) pick :: rest ∨ s.schedule = .host (.read addr size) pick :: rest) →
    step s = .next { s with schedule := rest, pick := pick, busResp := .busError }) ∧
  (∀ (s : State) (addr : Word32) (r : Reg) (pick : Nat) (v : Word64) (rest : List Action),
    regAt s.params addr.toNat = some r → r.readOnly = true → s.schedule = .host (.write addr 8 v) pick :: rest →
    step s = .next { s with schedule := rest, pick := pick, busResp := .data 0 })

/-- R31 to R36, R42, R46 to R51, R53 to R58, R60, R83, R112: what a host read of each register returns (`mayRead`). R46,
R47: a host that has read a stat is never given an older value of it: a read either returns the packet being published
counted and is on record as having seen it, or misses it, which R95 allows only until a read has seen it (log 13); with an
even choice number it does not miss it. -/
def Obligations.HostReadsReturnTheRegister : Prop :=
  ∀ (s : State) (addr : Word32) (r : Reg) (pick : Nat) (rest : List Action),
    s.params.valid → regAt s.params addr.toNat = some r → s.schedule = .host (.read addr 8) pick :: rest →
    ∃ (t : State) (v : Word64), step s = .next t ∧ t.busResp = .data v ∧ s.mayRead v r ∧
      (r ≠ .framesReceived → t.framesSeen = s.framesSeen) ∧ (r ≠ .bytesReceived → t.bytesSeen = s.bytesSeen) ∧
      (r = .framesReceived →
        (v = s.framesReceived ↔ t.framesSeen = true) ∧ (pick % 2 = 0 ∨ s.framesSeen = true → t.framesSeen = true)) ∧
      (r = .bytesReceived →
        (t.bytesSeen = true → v = s.bytesReceived) ∧ (pick % 2 = 0 ∨ s.bytesSeen = true → t.bytesSeen = true) ∧
        (t.bytesSeen = false → ∃ n, s.engine.countedBytes n ∧ v = s.bytesReceived - n.setWidth 64))

/-- R111, R112, R113: the register map, both ways: every register the implementation has is reached at its address, and
an address that reaches a register is that register's. -/
def Obligations.EveryRegisterIsAtItsAddress : Prop :=
  ∀ (P : Params) (a : Nat) (r : Reg), P.valid → (regAt P a = some r ↔ regAddress P r = some a)

/-- R83: a host write of a series entry of an idle port is stored, no other entry of the array changes and no other
state; a write while the port is busy is a bus error with no effect. -/
def Obligations.SeriesWindowWritesOneEntry : Prop :=
  ∀ (s : State) (p k pick : Nat) (arr : SeriesArr) (q : Port) (v : Word64) (addr : Word32) (rest : List Action),
    regAt s.params addr.toNat = some (.series p arr k) → s.ports[p]? = some q →
    s.schedule = .host (.write addr 8 v) pick :: rest →
    (q.cmd = none → ∃ m : Memory 64,
      step s = .next
        { s with schedule := rest, pick := pick, busResp := .data 0, ports := s.ports.set p (q.setSeries arr m) } ∧
      ∀ j, m.read j = if j = k then some v else (q.series arr).read j) ∧
    (q.cmd ≠ none → step s = .next { s with schedule := rest, pick := pick, busResp := .busError })

/-- R35, R152: a host write to a CFG register stores the low 32 bits in the staged copy and changes nothing else, in
every state. -/
def Obligations.CfgWritesOnlyStage : Prop :=
  ∀ (s : State) (f : CfgField) (pick : Nat) (v : Word64) (addr : Word32) (rest : List Action),
    regAt s.params addr.toNat = some (.cfg f) → s.schedule = .host (.write addr 8 v) pick :: rest →
    step s = .next
      { s with schedule := rest, pick := pick, busResp := .data 0, staged := s.staged.set f (v.setWidth 32) } ∧
    (s.staged.set f (v.setWidth 32)).get f = v.setWidth 32 ∧
    ∀ g, g ≠ f → (s.staged.set f (v.setWidth 32)).get g = s.staged.get g

/-- R56, R97: a host write to a PARG register is what the next host read of it returns, and changes no other register
of the port. -/
def Obligations.PargWritesReadBack : Prop :=
  ∀ (s : State) (p pick pick' : Nat) (r : ArgReg) (q : Port) (v : Word64) (addr : Word32) (rest : List Action),
    regAt s.params addr.toNat = some (.parg p r) → s.ports[p]? = some q →
    s.schedule = .host (.write addr 8 v) pick :: .host (.read addr 8) pick' :: rest →
    ∃ s1 : State, step s = .next s1 ∧
      s1 = { s with
        schedule := .host (.read addr 8) pick' :: rest
        pick := pick
        busResp := .data 0
        ports := s.ports.set p (q.setArg r v) } ∧
      step s1 = .next { s1 with schedule := rest, pick := pick', busResp := .data v }

/-- R50, R51, R52, R310: a host write to IRQ_STATUS clears the bits written 1 and no other; one to IRQ_ENABLE stores bits
1:0; NOTIFY is 1 exactly when an enabled status bit is 1. -/
def Obligations.IrqStatusIsWriteOneToClear : Prop :=
  (∀ (s : State) (pick : Nat) (v : Word64) (rest : List Action),
    s.schedule = .host (.write 0x128 8 v) pick :: rest →
    ∃ b : BitVec 2,
      step s = .next { s with schedule := rest, pick := pick, busResp := .data 0, irqStatus := b } ∧
      ∀ j, j < 2 → b.getLsbD j = (s.irqStatus.getLsbD j && !v.getLsbD j)) ∧
  (∀ (s : State) (pick : Nat) (v : Word64) (rest : List Action),
    s.schedule = .host (.write 0x130 8 v) pick :: rest →
    ∃ b : BitVec 2,
      step s = .next { s with schedule := rest, pick := pick, busResp := .data 0, irqEnable := b } ∧
      ∀ j, j < 2 → b.getLsbD j = v.getLsbD j) ∧
  (∀ s : State, s.notify = true ↔
    (s.irqStatus.getLsbD 0 = true ∧ s.irqEnable.getLsbD 0 = true) ∨
    (s.irqStatus.getLsbD 1 = true ∧ s.irqEnable.getLsbD 1 = true))

/-- R34, R54, R302, R303: the bits of CTRL_STATUS and PSTATUS, and the codes that stand in them and in DROP_REASON. -/
def Obligations.StatusWordsPlaceTheirBits : Prop :=
  (∀ (s : State) (j : Nat), s.ctrlStatusWord.getLsbD j =
    if j = 0 then decide (s.engine ≠ .stopped) else if j = 1 then s.stopPending else if j = 2 then s.srcError
    else if 8 ≤ j then s.ctrlResult.code.getLsbD (j - 8) else false) ∧
  (∀ (q : Port) (j : Nat), q.statusWord.getLsbD j =
    if j = 0 then q.cmd.isSome else if j = 1 then q.done else if j = 2 then q.err else if j = 3 then q.overrun
    else if 8 ≤ j then q.result.code.getLsbD (j - 8) else false) ∧
  (ResultCode.code .ok = 0x00 ∧ ResultCode.code .errOpcode = 0x01 ∧ ResultCode.code .errState = 0x02 ∧
    ResultCode.code .errPortBusy = 0x03 ∧ ResultCode.code .errFeature = 0x04 ∧ ResultCode.code .cfgBadPackMode = 0x10 ∧
    ResultCode.code .cfgBadSplit = 0x11 ∧ ResultCode.code .cfgBadSpf = 0x12 ∧ ResultCode.code .cfgBadBps = 0x13 ∧
    ResultCode.code .cfgBadGeometry = 0x14 ∧ ResultCode.code .errIndex = 0x20 ∧ ResultCode.code .errChannel = 0x21 ∧
    ResultCode.code .errBins = 0x22 ∧ ResultCode.code .errWindow = 0x23 ∧ ResultCode.code .errLength = 0x24) ∧
  (DropReason.code .linkUnsupported = 0x30 ∧ DropReason.code .linkTruncated = 0x31 ∧ DropReason.code .notIpv4 = 0x32 ∧
    DropReason.code .ipTruncated = 0x33 ∧ DropReason.code .ipVersion = 0x34 ∧ DropReason.code .ipIhl = 0x35 ∧
    DropReason.code .notUdp = 0x36 ∧ DropReason.code .udpLength = 0x37 ∧ DropReason.code .lengthMismatch = 0x38 ∧
    DropReason.code .unpack = 0x39 ∧ DropReason.code .oversize = 0x3A ∧ DropReason.code .udpTruncated = 0x3B)

/-- R330: reset gives every element its reset value and keeps only the parameters, from any state. The last three
lines are the model's own fields (logs 3, 9, 10). -/
def Obligations.ResetSetsEveryElement : Prop :=
  ∀ (s : State) (rest : List Action), s.schedule = .reset :: rest →
    ∃ t, step s = .next t ∧
      t.params = s.params ∧ t.stopPending = false ∧ t.srcError = false ∧ t.ctrlResult = .ok ∧ t.grace = false ∧
      t.staged = ⟨1299, 8, 1280, 11, 10, 1024, 0⟩ ∧ t.active = ⟨1299, 8, 1280, 11, 10, 1024, 0⟩ ∧
      t.engine = .stopped ∧ t.wcount = 0 ∧ (∀ a, t.ring.read a = none) ∧ t.framesReceived = 0 ∧
      t.bytesReceived = 0 ∧ t.framesDropped = 0 ∧ t.dropReason = none ∧ t.irqStatus = 0 ∧ t.irqEnable = 0 ∧
      t.notify = false ∧ t.ports.length = s.params.numReaders ∧
      (∀ q ∈ t.ports, q.statusWord = 0 ∧ q.snap = 0 ∧ q.arg0 = 0 ∧ q.arg1 = 0 ∧ q.arg2 = 0 ∧ q.arg3 = 0 ∧
        q.sample = 0 ∧ q.lastBins = 0 ∧ q.cmd = none ∧ ∀ arr k, (q.series arr).read k = none) ∧
      t.schedule = rest ∧ t.draws = s.draws ∧ t.seriesSeed = s.seriesSeed + 1

/-- R308, R240: the append that finds W = 2^64 − 1 is the fault W_OVERFLOW, and no step faults otherwise. The only
refusal of a step is of offered bytes that are no ingress transaction (the model's own, log 16). -/
def Obligations.OnlyTheCounterLimitFaults : Prop :=
  (∀ (k : Packet) (frame : List Word16) (s : State),
    s.engine = .publish k frame .loadW → s.wcount = 0xFFFFFFFFFFFFFFFF →
    exec (.ingressPacket k.tag k.caplen k.wirelen k.data) s = .fault .wOverflow) ∧
  (∀ (s : State) (r : Fault), step s = .fault r →
    r = .wOverflow ∧ s.wcount = 0xFFFFFFFFFFFFFFFF ∧ ∃ k frame, s.engine = .publish k frame .loadW) ∧
  (∀ (s : State) (r : Refusal), step s = .refused r →
    r = .malformedIngress ∧ ∃ bytes rest, s.schedule = .offer bytes :: rest ∧
      ∀ i, decode .ingress bytes ≠ .ok i)

/-! ### Invariant -/

/-- R34, R37, R39, R45, R54, R59, R245: the invariant of Safety.lean is kept by every step of every agent. -/
def Obligations.InvariantIsKeptByEveryStep : Prop :=
  ∀ s t : State, s.Inv → step s = .next t → t.Inv

/-- R330, R37: the invariant holds after reset, for all parameters R7 allows. -/
def Obligations.InvariantHoldsAtReset : Prop :=
  (∀ P : Params, P.valid → (State.resetWith P).Inv) ∧ State.reset.Inv
end

