-- ==== Sys2Proof/Laws/State.lean ====
section
/-!
SUPPORT. One lemma for each field and each named update of the state and of a port, true by rfl, so that no later proof
unfolds a record update.
-/
namespace Sys2Proof.Machine

/-! ### State.setPort -/

@[simp] theorem State.setPort_params (s : State) (p : Nat) (q : Port) : (s.setPort p q).params = s.params := rfl

@[simp] theorem State.setPort_stopPending (s : State) (p : Nat) (q : Port) : (s.setPort p q).stopPending = s.stopPending := rfl

@[simp] theorem State.setPort_srcError (s : State) (p : Nat) (q : Port) : (s.setPort p q).srcError = s.srcError := rfl

@[simp] theorem State.setPort_ctrlResult (s : State) (p : Nat) (q : Port) : (s.setPort p q).ctrlResult = s.ctrlResult := rfl

@[simp] theorem State.setPort_grace (s : State) (p : Nat) (q : Port) : (s.setPort p q).grace = s.grace := rfl

@[simp] theorem State.setPort_staged (s : State) (p : Nat) (q : Port) : (s.setPort p q).staged = s.staged := rfl

@[simp] theorem State.setPort_active (s : State) (p : Nat) (q : Port) : (s.setPort p q).active = s.active := rfl

@[simp] theorem State.setPort_engine (s : State) (p : Nat) (q : Port) : (s.setPort p q).engine = s.engine := rfl

@[simp] theorem State.setPort_wcount (s : State) (p : Nat) (q : Port) : (s.setPort p q).wcount = s.wcount := rfl

@[simp] theorem State.setPort_ring (s : State) (p : Nat) (q : Port) : (s.setPort p q).ring = s.ring := rfl

@[simp] theorem State.setPort_framesReceived (s : State) (p : Nat) (q : Port) : (s.setPort p q).framesReceived = s.framesReceived := rfl

@[simp] theorem State.setPort_bytesReceived (s : State) (p : Nat) (q : Port) : (s.setPort p q).bytesReceived = s.bytesReceived := rfl

@[simp] theorem State.setPort_framesDropped (s : State) (p : Nat) (q : Port) : (s.setPort p q).framesDropped = s.framesDropped := rfl

@[simp] theorem State.setPort_dropReason (s : State) (p : Nat) (q : Port) : (s.setPort p q).dropReason = s.dropReason := rfl

@[simp] theorem State.setPort_irqStatus (s : State) (p : Nat) (q : Port) : (s.setPort p q).irqStatus = s.irqStatus := rfl

@[simp] theorem State.setPort_irqEnable (s : State) (p : Nat) (q : Port) : (s.setPort p q).irqEnable = s.irqEnable := rfl

@[simp] theorem State.setPort_ports (s : State) (p : Nat) (q : Port) : (s.setPort p q).ports = s.ports.set p q := rfl

@[simp] theorem State.setPort_schedule (s : State) (p : Nat) (q : Port) : (s.setPort p q).schedule = s.schedule := rfl

@[simp] theorem State.setPort_pick (s : State) (p : Nat) (q : Port) : (s.setPort p q).pick = s.pick := rfl

@[simp] theorem State.setPort_draws (s : State) (p : Nat) (q : Port) : (s.setPort p q).draws = s.draws := rfl

@[simp] theorem State.setPort_seriesSeed (s : State) (p : Nat) (q : Port) : (s.setPort p q).seriesSeed = s.seriesSeed := rfl

@[simp] theorem State.setPort_framesSeen (s : State) (p : Nat) (q : Port) : (s.setPort p q).framesSeen = s.framesSeen := rfl

@[simp] theorem State.setPort_bytesSeen (s : State) (p : Nat) (q : Port) : (s.setPort p q).bytesSeen = s.bytesSeen := rfl

@[simp] theorem State.setPort_busResp (s : State) (p : Nat) (q : Port) : (s.setPort p q).busResp = s.busResp := rfl

/-! ### State.busError -/

@[simp] theorem State.busError_params (s : State) : (s.busError).params = s.params := rfl

@[simp] theorem State.busError_stopPending (s : State) : (s.busError).stopPending = s.stopPending := rfl

@[simp] theorem State.busError_srcError (s : State) : (s.busError).srcError = s.srcError := rfl

@[simp] theorem State.busError_ctrlResult (s : State) : (s.busError).ctrlResult = s.ctrlResult := rfl

@[simp] theorem State.busError_grace (s : State) : (s.busError).grace = s.grace := rfl

@[simp] theorem State.busError_staged (s : State) : (s.busError).staged = s.staged := rfl

@[simp] theorem State.busError_active (s : State) : (s.busError).active = s.active := rfl

@[simp] theorem State.busError_engine (s : State) : (s.busError).engine = s.engine := rfl

@[simp] theorem State.busError_wcount (s : State) : (s.busError).wcount = s.wcount := rfl

@[simp] theorem State.busError_ring (s : State) : (s.busError).ring = s.ring := rfl

@[simp] theorem State.busError_framesReceived (s : State) : (s.busError).framesReceived = s.framesReceived := rfl

@[simp] theorem State.busError_bytesReceived (s : State) : (s.busError).bytesReceived = s.bytesReceived := rfl

@[simp] theorem State.busError_framesDropped (s : State) : (s.busError).framesDropped = s.framesDropped := rfl

@[simp] theorem State.busError_dropReason (s : State) : (s.busError).dropReason = s.dropReason := rfl

@[simp] theorem State.busError_irqStatus (s : State) : (s.busError).irqStatus = s.irqStatus := rfl

@[simp] theorem State.busError_irqEnable (s : State) : (s.busError).irqEnable = s.irqEnable := rfl

@[simp] theorem State.busError_ports (s : State) : (s.busError).ports = s.ports := rfl

@[simp] theorem State.busError_schedule (s : State) : (s.busError).schedule = s.schedule := rfl

@[simp] theorem State.busError_pick (s : State) : (s.busError).pick = s.pick := rfl

@[simp] theorem State.busError_draws (s : State) : (s.busError).draws = s.draws := rfl

@[simp] theorem State.busError_seriesSeed (s : State) : (s.busError).seriesSeed = s.seriesSeed := rfl

@[simp] theorem State.busError_framesSeen (s : State) : (s.busError).framesSeen = s.framesSeen := rfl

@[simp] theorem State.busError_bytesSeen (s : State) : (s.busError).bytesSeen = s.bytesSeen := rfl

@[simp] theorem State.busError_busResp (s : State) : (s.busError).busResp = .busError := rfl

/-! ### State.ctrlDone -/

@[simp] theorem State.ctrlDone_params (s : State) (code : ResultCode) : (s.ctrlDone code).params = s.params := rfl

@[simp] theorem State.ctrlDone_stopPending (s : State) (code : ResultCode) : (s.ctrlDone code).stopPending = s.stopPending := rfl

@[simp] theorem State.ctrlDone_srcError (s : State) (code : ResultCode) : (s.ctrlDone code).srcError = s.srcError := rfl

@[simp] theorem State.ctrlDone_ctrlResult (s : State) (code : ResultCode) : (s.ctrlDone code).ctrlResult = code := rfl

@[simp] theorem State.ctrlDone_grace (s : State) (code : ResultCode) : (s.ctrlDone code).grace = s.grace := rfl

@[simp] theorem State.ctrlDone_staged (s : State) (code : ResultCode) : (s.ctrlDone code).staged = s.staged := rfl

@[simp] theorem State.ctrlDone_active (s : State) (code : ResultCode) : (s.ctrlDone code).active = s.active := rfl

@[simp] theorem State.ctrlDone_engine (s : State) (code : ResultCode) : (s.ctrlDone code).engine = s.engine := rfl

@[simp] theorem State.ctrlDone_wcount (s : State) (code : ResultCode) : (s.ctrlDone code).wcount = s.wcount := rfl

@[simp] theorem State.ctrlDone_ring (s : State) (code : ResultCode) : (s.ctrlDone code).ring = s.ring := rfl

@[simp] theorem State.ctrlDone_framesReceived (s : State) (code : ResultCode) : (s.ctrlDone code).framesReceived = s.framesReceived := rfl

@[simp] theorem State.ctrlDone_bytesReceived (s : State) (code : ResultCode) : (s.ctrlDone code).bytesReceived = s.bytesReceived := rfl

@[simp] theorem State.ctrlDone_framesDropped (s : State) (code : ResultCode) : (s.ctrlDone code).framesDropped = s.framesDropped := rfl

@[simp] theorem State.ctrlDone_dropReason (s : State) (code : ResultCode) : (s.ctrlDone code).dropReason = s.dropReason := rfl

@[simp] theorem State.ctrlDone_irqStatus (s : State) (code : ResultCode) : (s.ctrlDone code).irqStatus = s.irqStatus := rfl

@[simp] theorem State.ctrlDone_irqEnable (s : State) (code : ResultCode) : (s.ctrlDone code).irqEnable = s.irqEnable := rfl

@[simp] theorem State.ctrlDone_ports (s : State) (code : ResultCode) : (s.ctrlDone code).ports = s.ports := rfl

@[simp] theorem State.ctrlDone_schedule (s : State) (code : ResultCode) : (s.ctrlDone code).schedule = s.schedule := rfl

@[simp] theorem State.ctrlDone_pick (s : State) (code : ResultCode) : (s.ctrlDone code).pick = s.pick := rfl

@[simp] theorem State.ctrlDone_draws (s : State) (code : ResultCode) : (s.ctrlDone code).draws = s.draws := rfl

@[simp] theorem State.ctrlDone_seriesSeed (s : State) (code : ResultCode) : (s.ctrlDone code).seriesSeed = s.seriesSeed := rfl

@[simp] theorem State.ctrlDone_framesSeen (s : State) (code : ResultCode) : (s.ctrlDone code).framesSeen = s.framesSeen := rfl

@[simp] theorem State.ctrlDone_bytesSeen (s : State) (code : ResultCode) : (s.ctrlDone code).bytesSeen = s.bytesSeen := rfl

@[simp] theorem State.ctrlDone_busResp (s : State) (code : ResultCode) : (s.ctrlDone code).busResp = s.busResp := rfl

/-! ### State.engineExit -/

@[simp] theorem State.engineExit_params (s : State) : (s.engineExit).params = s.params := rfl

@[simp] theorem State.engineExit_stopPending (s : State) : (s.engineExit).stopPending = false := rfl

@[simp] theorem State.engineExit_srcError (s : State) : (s.engineExit).srcError = s.srcError := rfl

@[simp] theorem State.engineExit_ctrlResult (s : State) : (s.engineExit).ctrlResult = s.ctrlResult := rfl

@[simp] theorem State.engineExit_grace (s : State) : (s.engineExit).grace = false := rfl

@[simp] theorem State.engineExit_staged (s : State) : (s.engineExit).staged = s.staged := rfl

@[simp] theorem State.engineExit_active (s : State) : (s.engineExit).active = s.active := rfl

@[simp] theorem State.engineExit_engine (s : State) : (s.engineExit).engine = .stopped := rfl

@[simp] theorem State.engineExit_wcount (s : State) : (s.engineExit).wcount = s.wcount := rfl

@[simp] theorem State.engineExit_ring (s : State) : (s.engineExit).ring = s.ring := rfl

@[simp] theorem State.engineExit_framesReceived (s : State) : (s.engineExit).framesReceived = s.framesReceived := rfl

@[simp] theorem State.engineExit_bytesReceived (s : State) : (s.engineExit).bytesReceived = s.bytesReceived := rfl

@[simp] theorem State.engineExit_framesDropped (s : State) : (s.engineExit).framesDropped = s.framesDropped := rfl

@[simp] theorem State.engineExit_dropReason (s : State) : (s.engineExit).dropReason = s.dropReason := rfl

@[simp] theorem State.engineExit_irqStatus (s : State) : (s.engineExit).irqStatus = s.irqStatus := rfl

@[simp] theorem State.engineExit_irqEnable (s : State) : (s.engineExit).irqEnable = s.irqEnable := rfl

@[simp] theorem State.engineExit_ports (s : State) : (s.engineExit).ports = s.ports := rfl

@[simp] theorem State.engineExit_schedule (s : State) : (s.engineExit).schedule = s.schedule := rfl

@[simp] theorem State.engineExit_pick (s : State) : (s.engineExit).pick = s.pick := rfl

@[simp] theorem State.engineExit_draws (s : State) : (s.engineExit).draws = s.draws := rfl

@[simp] theorem State.engineExit_seriesSeed (s : State) : (s.engineExit).seriesSeed = s.seriesSeed := rfl

@[simp] theorem State.engineExit_framesSeen (s : State) : (s.engineExit).framesSeen = s.framesSeen := rfl

@[simp] theorem State.engineExit_bytesSeen (s : State) : (s.engineExit).bytesSeen = s.bytesSeen := rfl

@[simp] theorem State.engineExit_busResp (s : State) : (s.engineExit).busResp = s.busResp := rfl

/-! ### State.dropPacket -/

@[simp] theorem State.dropPacket_params (s : State) (r : DropReason) : (s.dropPacket r).params = s.params := rfl

@[simp] theorem State.dropPacket_stopPending (s : State) (r : DropReason) : (s.dropPacket r).stopPending = s.stopPending := rfl

@[simp] theorem State.dropPacket_srcError (s : State) (r : DropReason) : (s.dropPacket r).srcError = s.srcError := rfl

@[simp] theorem State.dropPacket_ctrlResult (s : State) (r : DropReason) : (s.dropPacket r).ctrlResult = s.ctrlResult := rfl

@[simp] theorem State.dropPacket_grace (s : State) (r : DropReason) : (s.dropPacket r).grace = s.grace := rfl

@[simp] theorem State.dropPacket_staged (s : State) (r : DropReason) : (s.dropPacket r).staged = s.staged := rfl

@[simp] theorem State.dropPacket_active (s : State) (r : DropReason) : (s.dropPacket r).active = s.active := rfl

@[simp] theorem State.dropPacket_engine (s : State) (r : DropReason) : (s.dropPacket r).engine = .receive := rfl

@[simp] theorem State.dropPacket_wcount (s : State) (r : DropReason) : (s.dropPacket r).wcount = s.wcount := rfl

@[simp] theorem State.dropPacket_ring (s : State) (r : DropReason) : (s.dropPacket r).ring = s.ring := rfl

@[simp] theorem State.dropPacket_framesReceived (s : State) (r : DropReason) : (s.dropPacket r).framesReceived = s.framesReceived := rfl

@[simp] theorem State.dropPacket_bytesReceived (s : State) (r : DropReason) : (s.dropPacket r).bytesReceived = s.bytesReceived := rfl

@[simp] theorem State.dropPacket_framesDropped (s : State) (r : DropReason) : (s.dropPacket r).framesDropped = s.framesDropped + 1 := rfl

@[simp] theorem State.dropPacket_dropReason (s : State) (r : DropReason) : (s.dropPacket r).dropReason = some r := rfl

@[simp] theorem State.dropPacket_irqStatus (s : State) (r : DropReason) : (s.dropPacket r).irqStatus = s.irqStatus := rfl

@[simp] theorem State.dropPacket_irqEnable (s : State) (r : DropReason) : (s.dropPacket r).irqEnable = s.irqEnable := rfl

@[simp] theorem State.dropPacket_ports (s : State) (r : DropReason) : (s.dropPacket r).ports = s.ports := rfl

@[simp] theorem State.dropPacket_schedule (s : State) (r : DropReason) : (s.dropPacket r).schedule = s.schedule := rfl

@[simp] theorem State.dropPacket_pick (s : State) (r : DropReason) : (s.dropPacket r).pick = s.pick := rfl

@[simp] theorem State.dropPacket_draws (s : State) (r : DropReason) : (s.dropPacket r).draws = s.draws := rfl

@[simp] theorem State.dropPacket_seriesSeed (s : State) (r : DropReason) : (s.dropPacket r).seriesSeed = s.seriesSeed := rfl

@[simp] theorem State.dropPacket_framesSeen (s : State) (r : DropReason) : (s.dropPacket r).framesSeen = s.framesSeen := rfl

@[simp] theorem State.dropPacket_bytesSeen (s : State) (r : DropReason) : (s.dropPacket r).bytesSeen = s.bytesSeen := rfl

@[simp] theorem State.dropPacket_busResp (s : State) (r : DropReason) : (s.dropPacket r).busResp = s.busResp := rfl

/-! ### State.countFrame -/

@[simp] theorem State.countFrame_params (s : State) : s.countFrame.params = s.params := rfl

@[simp] theorem State.countFrame_stopPending (s : State) : s.countFrame.stopPending = s.stopPending := rfl

@[simp] theorem State.countFrame_srcError (s : State) : s.countFrame.srcError = s.srcError := rfl

@[simp] theorem State.countFrame_ctrlResult (s : State) : s.countFrame.ctrlResult = s.ctrlResult := rfl

@[simp] theorem State.countFrame_grace (s : State) : s.countFrame.grace = s.grace := rfl

@[simp] theorem State.countFrame_staged (s : State) : s.countFrame.staged = s.staged := rfl

@[simp] theorem State.countFrame_active (s : State) : s.countFrame.active = s.active := rfl

@[simp] theorem State.countFrame_engine (s : State) : s.countFrame.engine = s.engine := rfl

@[simp] theorem State.countFrame_wcount (s : State) : s.countFrame.wcount = s.wcount := rfl

@[simp] theorem State.countFrame_ring (s : State) : s.countFrame.ring = s.ring := rfl

@[simp] theorem State.countFrame_framesReceived (s : State) : s.countFrame.framesReceived = s.framesReceived + 1 := rfl

@[simp] theorem State.countFrame_bytesReceived (s : State) : s.countFrame.bytesReceived = s.bytesReceived := rfl

@[simp] theorem State.countFrame_framesDropped (s : State) : s.countFrame.framesDropped = s.framesDropped := rfl

@[simp] theorem State.countFrame_dropReason (s : State) : s.countFrame.dropReason = s.dropReason := rfl

@[simp] theorem State.countFrame_irqStatus (s : State) : s.countFrame.irqStatus = s.irqStatus := rfl

@[simp] theorem State.countFrame_irqEnable (s : State) : s.countFrame.irqEnable = s.irqEnable := rfl

@[simp] theorem State.countFrame_ports (s : State) : s.countFrame.ports = s.ports := rfl

@[simp] theorem State.countFrame_schedule (s : State) : s.countFrame.schedule = s.schedule := rfl

@[simp] theorem State.countFrame_pick (s : State) : s.countFrame.pick = s.pick := rfl

@[simp] theorem State.countFrame_draws (s : State) : s.countFrame.draws = s.draws := rfl

@[simp] theorem State.countFrame_seriesSeed (s : State) : s.countFrame.seriesSeed = s.seriesSeed := rfl

@[simp] theorem State.countFrame_framesSeen (s : State) : s.countFrame.framesSeen = false := rfl

@[simp] theorem State.countFrame_bytesSeen (s : State) : s.countFrame.bytesSeen = s.bytesSeen := rfl

@[simp] theorem State.countFrame_busResp (s : State) : s.countFrame.busResp = s.busResp := rfl

/-! ### State.countBytes -/

@[simp] theorem State.countBytes_params (s : State) (n : Word32) : (s.countBytes n).params = s.params := rfl

@[simp] theorem State.countBytes_stopPending (s : State) (n : Word32) : (s.countBytes n).stopPending = s.stopPending := rfl

@[simp] theorem State.countBytes_srcError (s : State) (n : Word32) : (s.countBytes n).srcError = s.srcError := rfl

@[simp] theorem State.countBytes_ctrlResult (s : State) (n : Word32) : (s.countBytes n).ctrlResult = s.ctrlResult := rfl

@[simp] theorem State.countBytes_grace (s : State) (n : Word32) : (s.countBytes n).grace = s.grace := rfl

@[simp] theorem State.countBytes_staged (s : State) (n : Word32) : (s.countBytes n).staged = s.staged := rfl

@[simp] theorem State.countBytes_active (s : State) (n : Word32) : (s.countBytes n).active = s.active := rfl

@[simp] theorem State.countBytes_engine (s : State) (n : Word32) : (s.countBytes n).engine = s.engine := rfl

@[simp] theorem State.countBytes_wcount (s : State) (n : Word32) : (s.countBytes n).wcount = s.wcount := rfl

@[simp] theorem State.countBytes_ring (s : State) (n : Word32) : (s.countBytes n).ring = s.ring := rfl

@[simp] theorem State.countBytes_framesReceived (s : State) (n : Word32) : (s.countBytes n).framesReceived = s.framesReceived := rfl

@[simp] theorem State.countBytes_bytesReceived (s : State) (n : Word32) : (s.countBytes n).bytesReceived = s.bytesReceived + n.setWidth 64 := rfl

@[simp] theorem State.countBytes_framesDropped (s : State) (n : Word32) : (s.countBytes n).framesDropped = s.framesDropped := rfl

@[simp] theorem State.countBytes_dropReason (s : State) (n : Word32) : (s.countBytes n).dropReason = s.dropReason := rfl

@[simp] theorem State.countBytes_irqStatus (s : State) (n : Word32) : (s.countBytes n).irqStatus = s.irqStatus := rfl

@[simp] theorem State.countBytes_irqEnable (s : State) (n : Word32) : (s.countBytes n).irqEnable = s.irqEnable := rfl

@[simp] theorem State.countBytes_ports (s : State) (n : Word32) : (s.countBytes n).ports = s.ports := rfl

@[simp] theorem State.countBytes_schedule (s : State) (n : Word32) : (s.countBytes n).schedule = s.schedule := rfl

@[simp] theorem State.countBytes_pick (s : State) (n : Word32) : (s.countBytes n).pick = s.pick := rfl

@[simp] theorem State.countBytes_draws (s : State) (n : Word32) : (s.countBytes n).draws = s.draws := rfl

@[simp] theorem State.countBytes_seriesSeed (s : State) (n : Word32) : (s.countBytes n).seriesSeed = s.seriesSeed := rfl

@[simp] theorem State.countBytes_framesSeen (s : State) (n : Word32) : (s.countBytes n).framesSeen = s.framesSeen := rfl

@[simp] theorem State.countBytes_bytesSeen (s : State) (n : Word32) : (s.countBytes n).bytesSeen = false := rfl

@[simp] theorem State.countBytes_busResp (s : State) (n : Word32) : (s.countBytes n).busResp = s.busResp := rfl

/-! ### State.noteSeen -/

@[simp] theorem State.noteSeen_params (s : State) (r : Reg) : (s.noteSeen r).params = s.params := rfl

@[simp] theorem State.noteSeen_stopPending (s : State) (r : Reg) : (s.noteSeen r).stopPending = s.stopPending := rfl

@[simp] theorem State.noteSeen_srcError (s : State) (r : Reg) : (s.noteSeen r).srcError = s.srcError := rfl

@[simp] theorem State.noteSeen_ctrlResult (s : State) (r : Reg) : (s.noteSeen r).ctrlResult = s.ctrlResult := rfl

@[simp] theorem State.noteSeen_grace (s : State) (r : Reg) : (s.noteSeen r).grace = s.grace := rfl

@[simp] theorem State.noteSeen_staged (s : State) (r : Reg) : (s.noteSeen r).staged = s.staged := rfl

@[simp] theorem State.noteSeen_active (s : State) (r : Reg) : (s.noteSeen r).active = s.active := rfl

@[simp] theorem State.noteSeen_engine (s : State) (r : Reg) : (s.noteSeen r).engine = s.engine := rfl

@[simp] theorem State.noteSeen_wcount (s : State) (r : Reg) : (s.noteSeen r).wcount = s.wcount := rfl

@[simp] theorem State.noteSeen_ring (s : State) (r : Reg) : (s.noteSeen r).ring = s.ring := rfl

@[simp] theorem State.noteSeen_framesReceived (s : State) (r : Reg) : (s.noteSeen r).framesReceived = s.framesReceived := rfl

@[simp] theorem State.noteSeen_bytesReceived (s : State) (r : Reg) : (s.noteSeen r).bytesReceived = s.bytesReceived := rfl

@[simp] theorem State.noteSeen_framesDropped (s : State) (r : Reg) : (s.noteSeen r).framesDropped = s.framesDropped := rfl

@[simp] theorem State.noteSeen_dropReason (s : State) (r : Reg) : (s.noteSeen r).dropReason = s.dropReason := rfl

@[simp] theorem State.noteSeen_irqStatus (s : State) (r : Reg) : (s.noteSeen r).irqStatus = s.irqStatus := rfl

@[simp] theorem State.noteSeen_irqEnable (s : State) (r : Reg) : (s.noteSeen r).irqEnable = s.irqEnable := rfl

@[simp] theorem State.noteSeen_ports (s : State) (r : Reg) : (s.noteSeen r).ports = s.ports := rfl

@[simp] theorem State.noteSeen_schedule (s : State) (r : Reg) : (s.noteSeen r).schedule = s.schedule := rfl

@[simp] theorem State.noteSeen_pick (s : State) (r : Reg) : (s.noteSeen r).pick = s.pick := rfl

@[simp] theorem State.noteSeen_draws (s : State) (r : Reg) : (s.noteSeen r).draws = s.draws := rfl

@[simp] theorem State.noteSeen_seriesSeed (s : State) (r : Reg) : (s.noteSeen r).seriesSeed = s.seriesSeed := rfl

@[simp] theorem State.noteSeen_framesSeen (s : State) (r : Reg) :
    (s.noteSeen r).framesSeen = if r = .framesReceived then !s.framesLate else s.framesSeen := rfl

@[simp] theorem State.noteSeen_bytesSeen (s : State) (r : Reg) :
    (s.noteSeen r).bytesSeen = if r = .bytesReceived then !s.bytesLate else s.bytesSeen := rfl

@[simp] theorem State.noteSeen_busResp (s : State) (r : Reg) : (s.noteSeen r).busResp = s.busResp := rfl

/-! ### State.publishW -/

@[simp] theorem State.publishW_params (s : State) (w : Word64) : (s.publishW w).params = s.params := rfl

@[simp] theorem State.publishW_stopPending (s : State) (w : Word64) : (s.publishW w).stopPending = s.stopPending := rfl

@[simp] theorem State.publishW_srcError (s : State) (w : Word64) : (s.publishW w).srcError = s.srcError := rfl

@[simp] theorem State.publishW_ctrlResult (s : State) (w : Word64) : (s.publishW w).ctrlResult = s.ctrlResult := rfl

@[simp] theorem State.publishW_grace (s : State) (w : Word64) : (s.publishW w).grace = s.grace := rfl

@[simp] theorem State.publishW_staged (s : State) (w : Word64) : (s.publishW w).staged = s.staged := rfl

@[simp] theorem State.publishW_active (s : State) (w : Word64) : (s.publishW w).active = s.active := rfl

@[simp] theorem State.publishW_engine (s : State) (w : Word64) : (s.publishW w).engine = s.engine := rfl

@[simp] theorem State.publishW_wcount (s : State) (w : Word64) : (s.publishW w).wcount = w + 1 := rfl

@[simp] theorem State.publishW_ring (s : State) (w : Word64) : (s.publishW w).ring = s.ring := rfl

@[simp] theorem State.publishW_framesReceived (s : State) (w : Word64) : (s.publishW w).framesReceived = s.framesReceived := rfl

@[simp] theorem State.publishW_bytesReceived (s : State) (w : Word64) : (s.publishW w).bytesReceived = s.bytesReceived := rfl

@[simp] theorem State.publishW_framesDropped (s : State) (w : Word64) : (s.publishW w).framesDropped = s.framesDropped := rfl

@[simp] theorem State.publishW_dropReason (s : State) (w : Word64) : (s.publishW w).dropReason = s.dropReason := rfl

@[simp] theorem State.publishW_irqStatus (s : State) (w : Word64) : (s.publishW w).irqStatus = s.irqStatus ||| 1 := rfl

@[simp] theorem State.publishW_irqEnable (s : State) (w : Word64) : (s.publishW w).irqEnable = s.irqEnable := rfl

@[simp] theorem State.publishW_ports (s : State) (w : Word64) : (s.publishW w).ports = s.ports := rfl

@[simp] theorem State.publishW_schedule (s : State) (w : Word64) : (s.publishW w).schedule = s.schedule := rfl

@[simp] theorem State.publishW_pick (s : State) (w : Word64) : (s.publishW w).pick = s.pick := rfl

@[simp] theorem State.publishW_draws (s : State) (w : Word64) : (s.publishW w).draws = s.draws := rfl

@[simp] theorem State.publishW_seriesSeed (s : State) (w : Word64) : (s.publishW w).seriesSeed = s.seriesSeed := rfl

@[simp] theorem State.publishW_framesSeen (s : State) (w : Word64) : (s.publishW w).framesSeen = s.framesSeen := rfl

@[simp] theorem State.publishW_bytesSeen (s : State) (w : Word64) : (s.publishW w).bytesSeen = s.bytesSeen := rfl

@[simp] theorem State.publishW_busResp (s : State) (w : Word64) : (s.publishW w).busResp = s.busResp := rfl

/-! ### State.ringWrite -/

@[simp] theorem State.ringWrite_params (s : State) (a : Nat) (v : Word16) : (s.ringWrite a v).params = s.params := rfl

@[simp] theorem State.ringWrite_stopPending (s : State) (a : Nat) (v : Word16) : (s.ringWrite a v).stopPending = s.stopPending := rfl

@[simp] theorem State.ringWrite_srcError (s : State) (a : Nat) (v : Word16) : (s.ringWrite a v).srcError = s.srcError := rfl

@[simp] theorem State.ringWrite_ctrlResult (s : State) (a : Nat) (v : Word16) : (s.ringWrite a v).ctrlResult = s.ctrlResult := rfl

@[simp] theorem State.ringWrite_grace (s : State) (a : Nat) (v : Word16) : (s.ringWrite a v).grace = s.grace := rfl

@[simp] theorem State.ringWrite_staged (s : State) (a : Nat) (v : Word16) : (s.ringWrite a v).staged = s.staged := rfl

@[simp] theorem State.ringWrite_active (s : State) (a : Nat) (v : Word16) : (s.ringWrite a v).active = s.active := rfl

@[simp] theorem State.ringWrite_engine (s : State) (a : Nat) (v : Word16) : (s.ringWrite a v).engine = s.engine := rfl

@[simp] theorem State.ringWrite_wcount (s : State) (a : Nat) (v : Word16) : (s.ringWrite a v).wcount = s.wcount := rfl

@[simp] theorem State.ringWrite_ring (s : State) (a : Nat) (v : Word16) : (s.ringWrite a v).ring = s.ring.write a v := rfl

@[simp] theorem State.ringWrite_framesReceived (s : State) (a : Nat) (v : Word16) : (s.ringWrite a v).framesReceived = s.framesReceived := rfl

@[simp] theorem State.ringWrite_bytesReceived (s : State) (a : Nat) (v : Word16) : (s.ringWrite a v).bytesReceived = s.bytesReceived := rfl

@[simp] theorem State.ringWrite_framesDropped (s : State) (a : Nat) (v : Word16) : (s.ringWrite a v).framesDropped = s.framesDropped := rfl

@[simp] theorem State.ringWrite_dropReason (s : State) (a : Nat) (v : Word16) : (s.ringWrite a v).dropReason = s.dropReason := rfl

@[simp] theorem State.ringWrite_irqStatus (s : State) (a : Nat) (v : Word16) : (s.ringWrite a v).irqStatus = s.irqStatus := rfl

@[simp] theorem State.ringWrite_irqEnable (s : State) (a : Nat) (v : Word16) : (s.ringWrite a v).irqEnable = s.irqEnable := rfl

@[simp] theorem State.ringWrite_ports (s : State) (a : Nat) (v : Word16) : (s.ringWrite a v).ports = s.ports.map (fun q => { q with past := (a, s.ring.read a) :: q.past }) := rfl

@[simp] theorem State.ringWrite_schedule (s : State) (a : Nat) (v : Word16) : (s.ringWrite a v).schedule = s.schedule := rfl

@[simp] theorem State.ringWrite_pick (s : State) (a : Nat) (v : Word16) : (s.ringWrite a v).pick = s.pick := rfl

@[simp] theorem State.ringWrite_draws (s : State) (a : Nat) (v : Word16) : (s.ringWrite a v).draws = s.draws := rfl

@[simp] theorem State.ringWrite_seriesSeed (s : State) (a : Nat) (v : Word16) : (s.ringWrite a v).seriesSeed = s.seriesSeed := rfl

@[simp] theorem State.ringWrite_framesSeen (s : State) (a : Nat) (v : Word16) : (s.ringWrite a v).framesSeen = s.framesSeen := rfl

@[simp] theorem State.ringWrite_bytesSeen (s : State) (a : Nat) (v : Word16) : (s.ringWrite a v).bytesSeen = s.bytesSeen := rfl

@[simp] theorem State.ringWrite_busResp (s : State) (a : Nat) (v : Word16) : (s.ringWrite a v).busResp = s.busResp := rfl

/-! ### State.rebuild -/

@[simp] theorem State.rebuild_params (s : State) : (s.rebuild).params = s.params := rfl

@[simp] theorem State.rebuild_stopPending (s : State) : (s.rebuild).stopPending = s.stopPending := rfl

@[simp] theorem State.rebuild_srcError (s : State) : (s.rebuild).srcError = s.srcError := rfl

@[simp] theorem State.rebuild_ctrlResult (s : State) : (s.rebuild).ctrlResult = .ok := rfl

@[simp] theorem State.rebuild_grace (s : State) : (s.rebuild).grace = s.grace := rfl

@[simp] theorem State.rebuild_staged (s : State) : (s.rebuild).staged = s.staged := rfl

@[simp] theorem State.rebuild_active (s : State) : (s.rebuild).active = s.staged := rfl

@[simp] theorem State.rebuild_engine (s : State) : (s.rebuild).engine = s.engine := rfl

@[simp] theorem State.rebuild_wcount (s : State) : (s.rebuild).wcount = 0 := rfl

@[simp] theorem State.rebuild_ring (s : State) : (s.rebuild).ring = [] := rfl

@[simp] theorem State.rebuild_framesReceived (s : State) : (s.rebuild).framesReceived = s.framesReceived := rfl

@[simp] theorem State.rebuild_bytesReceived (s : State) : (s.rebuild).bytesReceived = s.bytesReceived := rfl

@[simp] theorem State.rebuild_framesDropped (s : State) : (s.rebuild).framesDropped = s.framesDropped := rfl

@[simp] theorem State.rebuild_dropReason (s : State) : (s.rebuild).dropReason = s.dropReason := rfl

@[simp] theorem State.rebuild_irqStatus (s : State) : (s.rebuild).irqStatus = s.irqStatus := rfl

@[simp] theorem State.rebuild_irqEnable (s : State) : (s.rebuild).irqEnable = s.irqEnable := rfl

@[simp] theorem State.rebuild_ports (s : State) : (s.rebuild).ports = s.ports.map (fun q => { q with snap := 0, past := [] }) := rfl

@[simp] theorem State.rebuild_schedule (s : State) : (s.rebuild).schedule = s.schedule := rfl

@[simp] theorem State.rebuild_pick (s : State) : (s.rebuild).pick = s.pick := rfl

@[simp] theorem State.rebuild_draws (s : State) : (s.rebuild).draws = s.draws := rfl

@[simp] theorem State.rebuild_seriesSeed (s : State) : (s.rebuild).seriesSeed = s.seriesSeed := rfl

@[simp] theorem State.rebuild_framesSeen (s : State) : (s.rebuild).framesSeen = s.framesSeen := rfl

@[simp] theorem State.rebuild_bytesSeen (s : State) : (s.rebuild).bytesSeen = s.bytesSeen := rfl

@[simp] theorem State.rebuild_busResp (s : State) : (s.rebuild).busResp = s.busResp := rfl

/-! ### State.takePacket -/

@[simp] theorem State.takePacket_params (s : State) (k : Packet) : (s.takePacket k).params = s.params := rfl

@[simp] theorem State.takePacket_stopPending (s : State) (k : Packet) : (s.takePacket k).stopPending = s.stopPending := rfl

@[simp] theorem State.takePacket_srcError (s : State) (k : Packet) : (s.takePacket k).srcError = s.srcError := rfl

@[simp] theorem State.takePacket_ctrlResult (s : State) (k : Packet) : (s.takePacket k).ctrlResult = s.ctrlResult := rfl

@[simp] theorem State.takePacket_grace (s : State) (k : Packet) : (s.takePacket k).grace = false := rfl

@[simp] theorem State.takePacket_staged (s : State) (k : Packet) : (s.takePacket k).staged = s.staged := rfl

@[simp] theorem State.takePacket_active (s : State) (k : Packet) : (s.takePacket k).active = s.active := rfl

@[simp] theorem State.takePacket_engine (s : State) (k : Packet) : (s.takePacket k).engine = if s.params.maxCaplen < k.caplen.toNat then .drop k .oversize else .demux k := rfl

@[simp] theorem State.takePacket_wcount (s : State) (k : Packet) : (s.takePacket k).wcount = s.wcount := rfl

@[simp] theorem State.takePacket_ring (s : State) (k : Packet) : (s.takePacket k).ring = s.ring := rfl

@[simp] theorem State.takePacket_framesReceived (s : State) (k : Packet) : (s.takePacket k).framesReceived = s.framesReceived := rfl

@[simp] theorem State.takePacket_bytesReceived (s : State) (k : Packet) : (s.takePacket k).bytesReceived = s.bytesReceived := rfl

@[simp] theorem State.takePacket_framesDropped (s : State) (k : Packet) : (s.takePacket k).framesDropped = s.framesDropped := rfl

@[simp] theorem State.takePacket_dropReason (s : State) (k : Packet) : (s.takePacket k).dropReason = s.dropReason := rfl

@[simp] theorem State.takePacket_irqStatus (s : State) (k : Packet) : (s.takePacket k).irqStatus = s.irqStatus := rfl

@[simp] theorem State.takePacket_irqEnable (s : State) (k : Packet) : (s.takePacket k).irqEnable = s.irqEnable := rfl

@[simp] theorem State.takePacket_ports (s : State) (k : Packet) : (s.takePacket k).ports = s.ports := rfl

@[simp] theorem State.takePacket_schedule (s : State) (k : Packet) : (s.takePacket k).schedule = s.schedule := rfl

@[simp] theorem State.takePacket_pick (s : State) (k : Packet) : (s.takePacket k).pick = s.pick := rfl

@[simp] theorem State.takePacket_draws (s : State) (k : Packet) : (s.takePacket k).draws = s.draws := rfl

@[simp] theorem State.takePacket_seriesSeed (s : State) (k : Packet) : (s.takePacket k).seriesSeed = s.seriesSeed := rfl

@[simp] theorem State.takePacket_framesSeen (s : State) (k : Packet) : (s.takePacket k).framesSeen = s.framesSeen := rfl

@[simp] theorem State.takePacket_bytesSeen (s : State) (k : Packet) : (s.takePacket k).bytesSeen = s.bytesSeen := rfl

@[simp] theorem State.takePacket_busResp (s : State) (k : Packet) : (s.takePacket k).busResp = s.busResp := rfl

/-! ### State.clearIrq -/

@[simp] theorem State.clearIrq_params (s : State) (v : Word64) : (s.clearIrq v).params = s.params := rfl

@[simp] theorem State.clearIrq_stopPending (s : State) (v : Word64) : (s.clearIrq v).stopPending = s.stopPending := rfl

@[simp] theorem State.clearIrq_srcError (s : State) (v : Word64) : (s.clearIrq v).srcError = s.srcError := rfl

@[simp] theorem State.clearIrq_ctrlResult (s : State) (v : Word64) : (s.clearIrq v).ctrlResult = s.ctrlResult := rfl

@[simp] theorem State.clearIrq_grace (s : State) (v : Word64) : (s.clearIrq v).grace = s.grace := rfl

@[simp] theorem State.clearIrq_staged (s : State) (v : Word64) : (s.clearIrq v).staged = s.staged := rfl

@[simp] theorem State.clearIrq_active (s : State) (v : Word64) : (s.clearIrq v).active = s.active := rfl

@[simp] theorem State.clearIrq_engine (s : State) (v : Word64) : (s.clearIrq v).engine = s.engine := rfl

@[simp] theorem State.clearIrq_wcount (s : State) (v : Word64) : (s.clearIrq v).wcount = s.wcount := rfl

@[simp] theorem State.clearIrq_ring (s : State) (v : Word64) : (s.clearIrq v).ring = s.ring := rfl

@[simp] theorem State.clearIrq_framesReceived (s : State) (v : Word64) : (s.clearIrq v).framesReceived = s.framesReceived := rfl

@[simp] theorem State.clearIrq_bytesReceived (s : State) (v : Word64) : (s.clearIrq v).bytesReceived = s.bytesReceived := rfl

@[simp] theorem State.clearIrq_framesDropped (s : State) (v : Word64) : (s.clearIrq v).framesDropped = s.framesDropped := rfl

@[simp] theorem State.clearIrq_dropReason (s : State) (v : Word64) : (s.clearIrq v).dropReason = s.dropReason := rfl

@[simp] theorem State.clearIrq_irqStatus (s : State) (v : Word64) : (s.clearIrq v).irqStatus = s.irqStatus &&& ~~~(v.setWidth 2) := rfl

@[simp] theorem State.clearIrq_irqEnable (s : State) (v : Word64) : (s.clearIrq v).irqEnable = s.irqEnable := rfl

@[simp] theorem State.clearIrq_ports (s : State) (v : Word64) : (s.clearIrq v).ports = s.ports := rfl

@[simp] theorem State.clearIrq_schedule (s : State) (v : Word64) : (s.clearIrq v).schedule = s.schedule := rfl

@[simp] theorem State.clearIrq_pick (s : State) (v : Word64) : (s.clearIrq v).pick = s.pick := rfl

@[simp] theorem State.clearIrq_draws (s : State) (v : Word64) : (s.clearIrq v).draws = s.draws := rfl

@[simp] theorem State.clearIrq_seriesSeed (s : State) (v : Word64) : (s.clearIrq v).seriesSeed = s.seriesSeed := rfl

@[simp] theorem State.clearIrq_framesSeen (s : State) (v : Word64) : (s.clearIrq v).framesSeen = s.framesSeen := rfl

@[simp] theorem State.clearIrq_bytesSeen (s : State) (v : Word64) : (s.clearIrq v).bytesSeen = s.bytesSeen := rfl

@[simp] theorem State.clearIrq_busResp (s : State) (v : Word64) : (s.clearIrq v).busResp = s.busResp := rfl

/-! ### Port.accept -/

@[simp] theorem Port.accept_done (q : Port) (op : BitVec 8) (arr : BitVec 2) : (q.accept op arr).done = false := rfl

@[simp] theorem Port.accept_err (q : Port) (op : BitVec 8) (arr : BitVec 2) : (q.accept op arr).err = false := rfl

@[simp] theorem Port.accept_overrun (q : Port) (op : BitVec 8) (arr : BitVec 2) : (q.accept op arr).overrun = false := rfl

@[simp] theorem Port.accept_result (q : Port) (op : BitVec 8) (arr : BitVec 2) : (q.accept op arr).result = .ok := rfl

@[simp] theorem Port.accept_snap (q : Port) (op : BitVec 8) (arr : BitVec 2) : (q.accept op arr).snap = q.snap := rfl

@[simp] theorem Port.accept_arg0 (q : Port) (op : BitVec 8) (arr : BitVec 2) : (q.accept op arr).arg0 = q.arg0 := rfl

@[simp] theorem Port.accept_arg1 (q : Port) (op : BitVec 8) (arr : BitVec 2) : (q.accept op arr).arg1 = q.arg1 := rfl

@[simp] theorem Port.accept_arg2 (q : Port) (op : BitVec 8) (arr : BitVec 2) : (q.accept op arr).arg2 = q.arg2 := rfl

@[simp] theorem Port.accept_arg3 (q : Port) (op : BitVec 8) (arr : BitVec 2) : (q.accept op arr).arg3 = q.arg3 := rfl

@[simp] theorem Port.accept_sample (q : Port) (op : BitVec 8) (arr : BitVec 2) : (q.accept op arr).sample = q.sample := rfl

@[simp] theorem Port.accept_lastBins (q : Port) (op : BitVec 8) (arr : BitVec 2) : (q.accept op arr).lastBins = q.lastBins := rfl

@[simp] theorem Port.accept_cmd (q : Port) (op : BitVec 8) (arr : BitVec 2) : (q.accept op arr).cmd = some { op := op, arr := arr, a0 := q.arg0, a1 := q.arg1, a2 := q.arg2, a3 := q.arg3, work := .accepted } := rfl

@[simp] theorem Port.accept_x (q : Port) (op : BitVec 8) (arr : BitVec 2) : (q.accept op arr).x = q.x := rfl

@[simp] theorem Port.accept_ymin (q : Port) (op : BitVec 8) (arr : BitVec 2) : (q.accept op arr).ymin = q.ymin := rfl

@[simp] theorem Port.accept_ymax (q : Port) (op : BitVec 8) (arr : BitVec 2) : (q.accept op arr).ymax = q.ymax := rfl

@[simp] theorem Port.accept_mean (q : Port) (op : BitVec 8) (arr : BitVec 2) : (q.accept op arr).mean = q.mean := rfl

@[simp] theorem Port.accept_past (q : Port) (op : BitVec 8) (arr : BitVec 2) : (q.accept op arr).past = q.past := rfl

/-! ### Port.complete -/

@[simp] theorem Port.complete_done (q : Port) : (q.complete).done = true := rfl

@[simp] theorem Port.complete_err (q : Port) : (q.complete).err = false := rfl

@[simp] theorem Port.complete_overrun (q : Port) : (q.complete).overrun = q.overrun := rfl

@[simp] theorem Port.complete_result (q : Port) : (q.complete).result = .ok := rfl

@[simp] theorem Port.complete_snap (q : Port) : (q.complete).snap = q.snap := rfl

@[simp] theorem Port.complete_arg0 (q : Port) : (q.complete).arg0 = q.arg0 := rfl

@[simp] theorem Port.complete_arg1 (q : Port) : (q.complete).arg1 = q.arg1 := rfl

@[simp] theorem Port.complete_arg2 (q : Port) : (q.complete).arg2 = q.arg2 := rfl

@[simp] theorem Port.complete_arg3 (q : Port) : (q.complete).arg3 = q.arg3 := rfl

@[simp] theorem Port.complete_sample (q : Port) : (q.complete).sample = q.sample := rfl

@[simp] theorem Port.complete_lastBins (q : Port) : (q.complete).lastBins = q.lastBins := rfl

@[simp] theorem Port.complete_cmd (q : Port) : (q.complete).cmd = none := rfl

@[simp] theorem Port.complete_x (q : Port) : (q.complete).x = q.x := rfl

@[simp] theorem Port.complete_ymin (q : Port) : (q.complete).ymin = q.ymin := rfl

@[simp] theorem Port.complete_ymax (q : Port) : (q.complete).ymax = q.ymax := rfl

@[simp] theorem Port.complete_mean (q : Port) : (q.complete).mean = q.mean := rfl

@[simp] theorem Port.complete_past (q : Port) : (q.complete).past = q.past := rfl

/-! ### Port.fail -/

@[simp] theorem Port.fail_done (q : Port) (code : ResultCode) : (q.fail code).done = false := rfl

@[simp] theorem Port.fail_err (q : Port) (code : ResultCode) : (q.fail code).err = true := rfl

@[simp] theorem Port.fail_overrun (q : Port) (code : ResultCode) : (q.fail code).overrun = q.overrun := rfl

@[simp] theorem Port.fail_result (q : Port) (code : ResultCode) : (q.fail code).result = code := rfl

@[simp] theorem Port.fail_snap (q : Port) (code : ResultCode) : (q.fail code).snap = q.snap := rfl

@[simp] theorem Port.fail_arg0 (q : Port) (code : ResultCode) : (q.fail code).arg0 = q.arg0 := rfl

@[simp] theorem Port.fail_arg1 (q : Port) (code : ResultCode) : (q.fail code).arg1 = q.arg1 := rfl

@[simp] theorem Port.fail_arg2 (q : Port) (code : ResultCode) : (q.fail code).arg2 = q.arg2 := rfl

@[simp] theorem Port.fail_arg3 (q : Port) (code : ResultCode) : (q.fail code).arg3 = q.arg3 := rfl

@[simp] theorem Port.fail_sample (q : Port) (code : ResultCode) : (q.fail code).sample = q.sample := rfl

@[simp] theorem Port.fail_lastBins (q : Port) (code : ResultCode) : (q.fail code).lastBins = q.lastBins := rfl

@[simp] theorem Port.fail_cmd (q : Port) (code : ResultCode) : (q.fail code).cmd = none := rfl

@[simp] theorem Port.fail_x (q : Port) (code : ResultCode) : (q.fail code).x = q.x := rfl

@[simp] theorem Port.fail_ymin (q : Port) (code : ResultCode) : (q.fail code).ymin = q.ymin := rfl

@[simp] theorem Port.fail_ymax (q : Port) (code : ResultCode) : (q.fail code).ymax = q.ymax := rfl

@[simp] theorem Port.fail_mean (q : Port) (code : ResultCode) : (q.fail code).mean = q.mean := rfl

@[simp] theorem Port.fail_past (q : Port) (code : ResultCode) : (q.fail code).past = q.past := rfl

/-! ### Port.noteOverrun -/

@[simp] theorem Port.noteOverrun_done (q : Port) : (q.noteOverrun).done = q.done := rfl

@[simp] theorem Port.noteOverrun_err (q : Port) : (q.noteOverrun).err = q.err := rfl

@[simp] theorem Port.noteOverrun_overrun (q : Port) : (q.noteOverrun).overrun = true := rfl

@[simp] theorem Port.noteOverrun_result (q : Port) : (q.noteOverrun).result = q.result := rfl

@[simp] theorem Port.noteOverrun_snap (q : Port) : (q.noteOverrun).snap = q.snap := rfl

@[simp] theorem Port.noteOverrun_arg0 (q : Port) : (q.noteOverrun).arg0 = q.arg0 := rfl

@[simp] theorem Port.noteOverrun_arg1 (q : Port) : (q.noteOverrun).arg1 = q.arg1 := rfl

@[simp] theorem Port.noteOverrun_arg2 (q : Port) : (q.noteOverrun).arg2 = q.arg2 := rfl

@[simp] theorem Port.noteOverrun_arg3 (q : Port) : (q.noteOverrun).arg3 = q.arg3 := rfl

@[simp] theorem Port.noteOverrun_sample (q : Port) : (q.noteOverrun).sample = q.sample := rfl

@[simp] theorem Port.noteOverrun_lastBins (q : Port) : (q.noteOverrun).lastBins = q.lastBins := rfl

@[simp] theorem Port.noteOverrun_cmd (q : Port) : (q.noteOverrun).cmd = q.cmd := rfl

@[simp] theorem Port.noteOverrun_x (q : Port) : (q.noteOverrun).x = q.x := rfl

@[simp] theorem Port.noteOverrun_ymin (q : Port) : (q.noteOverrun).ymin = q.ymin := rfl

@[simp] theorem Port.noteOverrun_ymax (q : Port) : (q.noteOverrun).ymax = q.ymax := rfl

@[simp] theorem Port.noteOverrun_mean (q : Port) : (q.noteOverrun).mean = q.mean := rfl

@[simp] theorem Port.noteOverrun_past (q : Port) : (q.noteOverrun).past = q.past := rfl

/-! ### Port.finishEnvelope -/

@[simp] theorem Port.finishEnvelope_done (q : Port) (bins : Word64) : (q.finishEnvelope bins).done = true := rfl

@[simp] theorem Port.finishEnvelope_err (q : Port) (bins : Word64) : (q.finishEnvelope bins).err = false := rfl

@[simp] theorem Port.finishEnvelope_overrun (q : Port) (bins : Word64) : (q.finishEnvelope bins).overrun = q.overrun := rfl

@[simp] theorem Port.finishEnvelope_result (q : Port) (bins : Word64) : (q.finishEnvelope bins).result = .ok := rfl

@[simp] theorem Port.finishEnvelope_snap (q : Port) (bins : Word64) : (q.finishEnvelope bins).snap = q.snap := rfl

@[simp] theorem Port.finishEnvelope_arg0 (q : Port) (bins : Word64) : (q.finishEnvelope bins).arg0 = q.arg0 := rfl

@[simp] theorem Port.finishEnvelope_arg1 (q : Port) (bins : Word64) : (q.finishEnvelope bins).arg1 = q.arg1 := rfl

@[simp] theorem Port.finishEnvelope_arg2 (q : Port) (bins : Word64) : (q.finishEnvelope bins).arg2 = q.arg2 := rfl

@[simp] theorem Port.finishEnvelope_arg3 (q : Port) (bins : Word64) : (q.finishEnvelope bins).arg3 = q.arg3 := rfl

@[simp] theorem Port.finishEnvelope_sample (q : Port) (bins : Word64) : (q.finishEnvelope bins).sample = q.sample := rfl

@[simp] theorem Port.finishEnvelope_lastBins (q : Port) (bins : Word64) : (q.finishEnvelope bins).lastBins = bins := rfl

@[simp] theorem Port.finishEnvelope_cmd (q : Port) (bins : Word64) : (q.finishEnvelope bins).cmd = none := rfl

@[simp] theorem Port.finishEnvelope_x (q : Port) (bins : Word64) : (q.finishEnvelope bins).x = q.x := rfl

@[simp] theorem Port.finishEnvelope_ymin (q : Port) (bins : Word64) : (q.finishEnvelope bins).ymin = q.ymin := rfl

@[simp] theorem Port.finishEnvelope_ymax (q : Port) (bins : Word64) : (q.finishEnvelope bins).ymax = q.ymax := rfl

@[simp] theorem Port.finishEnvelope_mean (q : Port) (bins : Word64) : (q.finishEnvelope bins).mean = q.mean := rfl

@[simp] theorem Port.finishEnvelope_past (q : Port) (bins : Word64) : (q.finishEnvelope bins).past = q.past := rfl

/-! ### Port.setSeries and Port.storeSeries -/

@[simp] theorem Port.setSeries_done (q : Port) (arr : SeriesArr) (m : Memory 64) : (q.setSeries arr m).done = q.done := by
  cases arr <;> rfl

@[simp] theorem Port.storeSeries_done (q : Port) (arr : SeriesArr) (k : Nat) (vs : List F64) :
    (q.storeSeries arr k vs).done = q.done := by
  cases arr <;> rfl

@[simp] theorem Port.setSeries_err (q : Port) (arr : SeriesArr) (m : Memory 64) : (q.setSeries arr m).err = q.err := by
  cases arr <;> rfl

@[simp] theorem Port.storeSeries_err (q : Port) (arr : SeriesArr) (k : Nat) (vs : List F64) :
    (q.storeSeries arr k vs).err = q.err := by
  cases arr <;> rfl

@[simp] theorem Port.setSeries_overrun (q : Port) (arr : SeriesArr) (m : Memory 64) : (q.setSeries arr m).overrun = q.overrun := by
  cases arr <;> rfl

@[simp] theorem Port.storeSeries_overrun (q : Port) (arr : SeriesArr) (k : Nat) (vs : List F64) :
    (q.storeSeries arr k vs).overrun = q.overrun := by
  cases arr <;> rfl

@[simp] theorem Port.setSeries_result (q : Port) (arr : SeriesArr) (m : Memory 64) : (q.setSeries arr m).result = q.result := by
  cases arr <;> rfl

@[simp] theorem Port.storeSeries_result (q : Port) (arr : SeriesArr) (k : Nat) (vs : List F64) :
    (q.storeSeries arr k vs).result = q.result := by
  cases arr <;> rfl

@[simp] theorem Port.setSeries_snap (q : Port) (arr : SeriesArr) (m : Memory 64) : (q.setSeries arr m).snap = q.snap := by
  cases arr <;> rfl

@[simp] theorem Port.storeSeries_snap (q : Port) (arr : SeriesArr) (k : Nat) (vs : List F64) :
    (q.storeSeries arr k vs).snap = q.snap := by
  cases arr <;> rfl

@[simp] theorem Port.setSeries_arg0 (q : Port) (arr : SeriesArr) (m : Memory 64) : (q.setSeries arr m).arg0 = q.arg0 := by
  cases arr <;> rfl

@[simp] theorem Port.storeSeries_arg0 (q : Port) (arr : SeriesArr) (k : Nat) (vs : List F64) :
    (q.storeSeries arr k vs).arg0 = q.arg0 := by
  cases arr <;> rfl

@[simp] theorem Port.setSeries_arg1 (q : Port) (arr : SeriesArr) (m : Memory 64) : (q.setSeries arr m).arg1 = q.arg1 := by
  cases arr <;> rfl

@[simp] theorem Port.storeSeries_arg1 (q : Port) (arr : SeriesArr) (k : Nat) (vs : List F64) :
    (q.storeSeries arr k vs).arg1 = q.arg1 := by
  cases arr <;> rfl

@[simp] theorem Port.setSeries_arg2 (q : Port) (arr : SeriesArr) (m : Memory 64) : (q.setSeries arr m).arg2 = q.arg2 := by
  cases arr <;> rfl

@[simp] theorem Port.storeSeries_arg2 (q : Port) (arr : SeriesArr) (k : Nat) (vs : List F64) :
    (q.storeSeries arr k vs).arg2 = q.arg2 := by
  cases arr <;> rfl

@[simp] theorem Port.setSeries_arg3 (q : Port) (arr : SeriesArr) (m : Memory 64) : (q.setSeries arr m).arg3 = q.arg3 := by
  cases arr <;> rfl

@[simp] theorem Port.storeSeries_arg3 (q : Port) (arr : SeriesArr) (k : Nat) (vs : List F64) :
    (q.storeSeries arr k vs).arg3 = q.arg3 := by
  cases arr <;> rfl

@[simp] theorem Port.setSeries_sample (q : Port) (arr : SeriesArr) (m : Memory 64) : (q.setSeries arr m).sample = q.sample := by
  cases arr <;> rfl

@[simp] theorem Port.storeSeries_sample (q : Port) (arr : SeriesArr) (k : Nat) (vs : List F64) :
    (q.storeSeries arr k vs).sample = q.sample := by
  cases arr <;> rfl

@[simp] theorem Port.setSeries_lastBins (q : Port) (arr : SeriesArr) (m : Memory 64) : (q.setSeries arr m).lastBins = q.lastBins := by
  cases arr <;> rfl

@[simp] theorem Port.storeSeries_lastBins (q : Port) (arr : SeriesArr) (k : Nat) (vs : List F64) :
    (q.storeSeries arr k vs).lastBins = q.lastBins := by
  cases arr <;> rfl

@[simp] theorem Port.setSeries_cmd (q : Port) (arr : SeriesArr) (m : Memory 64) : (q.setSeries arr m).cmd = q.cmd := by
  cases arr <;> rfl

@[simp] theorem Port.storeSeries_cmd (q : Port) (arr : SeriesArr) (k : Nat) (vs : List F64) :
    (q.storeSeries arr k vs).cmd = q.cmd := by
  cases arr <;> rfl

@[simp] theorem Port.setSeries_past (q : Port) (arr : SeriesArr) (m : Memory 64) : (q.setSeries arr m).past = q.past := by
  cases arr <;> rfl

@[simp] theorem Port.storeSeries_past (q : Port) (arr : SeriesArr) (k : Nat) (vs : List F64) :
    (q.storeSeries arr k vs).past = q.past := by
  cases arr <;> rfl

@[simp] theorem Port.series_setSeries_same (q : Port) (arr : SeriesArr) (m : Memory 64) :
    (q.setSeries arr m).series arr = m := by
  cases arr <;> rfl

theorem Port.series_setSeries_other (q : Port) (arr arr' : SeriesArr) (m : Memory 64) (h : arr' ≠ arr) :
    (q.setSeries arr m).series arr' = q.series arr' := by
  cases arr <;> cases arr' <;> first | rfl | exact absurd rfl h

/-! ### Port.series of the port updates -/

@[simp] theorem Port.series_complete (q : Port) (arr : SeriesArr) : q.complete.series arr = q.series arr := by
  cases arr <;> rfl

@[simp] theorem Port.series_fail (q : Port) (code : ResultCode) (arr : SeriesArr) :
    (q.fail code).series arr = q.series arr := by
  cases arr <;> rfl

@[simp] theorem Port.series_accept (q : Port) (op : BitVec 8) (arrF : BitVec 2) (arr : SeriesArr) :
    (q.accept op arrF).series arr = q.series arr := by
  cases arr <;> rfl

@[simp] theorem Port.series_finishEnvelope (q : Port) (bins : Word64) (arr : SeriesArr) :
    (q.finishEnvelope bins).series arr = q.series arr := by
  cases arr <;> rfl

end Sys2Proof.Machine
end

