-- ==== Sys2Proof/Laws/Host.lean ====
section
/-!
SUPPORT. The register map said once: which register an address reaches, and the fixed addresses of CTRL and PCMD; and
what a host read can do.
-/
namespace Sys2Proof.Machine

theorem lookupReg_mem {map : List (Nat × Reg)} {off : Nat} {r : Reg} (h : lookupReg map off = some r) :
    (off, r) ∈ map := by
  unfold lookupReg at h
  cases hf : map.find? (fun e => e.1 == off) with
  | none => simp [hf] at h
  | some e =>
    have he : e.1 = off := by simpa using List.find?_some hf
    have hr : e.2 = r := by simpa [hf] using h
    have := List.mem_of_find?_eq_some hf
    rwa [← he, ← hr]

/-- Everything a mapped address can be: a register of the control block, of a port block, or a series entry. -/
theorem regAt_cases {P : Params} {addr : Nat} {r : Reg} (h : regAt P addr = some r) :
    addr % 8 = 0 ∧
    ((addr < 0x1000 ∧ (addr, r) ∈ controlMap) ∨
     (∃ p off, addr = portBase p + off ∧ off < 0x100 ∧ 0x1000 ≤ addr ∧ addr < 0x100000 ∧ p < P.numReaders ∧
        (off, r) ∈ portMap p) ∨
     (∃ p off, addr = seriesBase p + off ∧ off < 0x100000 ∧ p < P.numReaders ∧ off % 0x40000 / 8 < P.maxBins ∧
        r = .series p (SeriesArr.ofCode (off / 0x40000)) (off % 0x40000 / 8))) := by
  unfold regAt at h
  split_ifs at h with h8 h1 h2
  · exact ⟨by omega, .inl ⟨h1, lookupReg_mem h⟩⟩
  · dsimp only at h
    split_ifs at h with hp
    exact ⟨by omega, .inr (.inl ⟨_, _, by unfold portBase; omega, by omega, by omega, h2, hp, lookupReg_mem h⟩)⟩
  · dsimp only at h
    split_ifs at h with hp
    exact ⟨by omega, .inr (.inr ⟨_, _, by unfold seriesBase; omega, by omega, hp.1, hp.2, by simpa using h.symm⟩)⟩

@[simp] theorem accessReg_ctrl (P : Params) : accessReg P ctrlAddr 8 = some .ctrl := rfl

theorem accessReg_pcmd {P : Params} {p : Nat} (h : p < P.numReaders) (h' : p < 255) :
    accessReg P (BitVec.ofNat 32 (portBase p)) 8 = some (.pcmd p) := by
  have e : (BitVec.ofNat 32 (portBase p)).toNat = portBase p := by
    simp only [portBase, BitVec.toNat_ofNat]
    omega
  have hq : (portBase p - 0x1000) / 0x100 = p := by unfold portBase; omega
  have hr : (portBase p - 0x1000) % 0x100 = 0 := by unfold portBase; omega
  simp only [accessReg, regAt, e, hq, hr, if_true]
  rw [if_neg (by unfold portBase; omega), if_neg (by unfold portBase; omega), if_pos (by unfold portBase; omega),
    if_pos h]
  rfl

/-! ### Host reads -/

/-- Everything a host read can do. -/
theorem State.hostRead_cases (s : State) (addr : Word32) (size : Nat) :
    (accessReg s.params addr size = none ∧ s.hostRead addr size = s.busError) ∨
    (∃ r, accessReg s.params addr size = some r ∧
      s.hostRead addr size =
        { s.noteSeen r with busResp := .data (s.readReg r), draws := s.draws + s.readDraws r }) := by
  unfold State.hostRead
  split
  · exact .inl ⟨‹_›, rfl⟩
  · exact .inr ⟨_, ‹_›, rfl⟩

/-- A read of FRAMES_RECEIVED: the register as it is, or, where no read has seen the packet being published, without it
(R46, R95, log 13). -/
theorem State.readFrames_cases (s : State) :
    (s.framesLate = false ∧ s.readFrames = s.framesReceived) ∨
    (s.framesLate = true ∧ s.framesSeen = false ∧
      ∃ n, s.engine.addedFrames = some n ∧ s.readFrames = s.framesReceived - n) := by
  unfold State.readFrames
  by_cases h : s.framesLate = true
  · have h' := h
    simp only [State.framesLate, Bool.and_eq_true, Bool.not_eq_true'] at h'
    obtain ⟨n, hn⟩ := Option.isSome_iff_exists.1 h'.1.1
    exact .inr ⟨h, h'.1.2, n, hn, by rw [if_pos h, hn]; rfl⟩
  · exact .inl ⟨by simpa using h, if_neg h⟩

/-- The same for BYTES_RECEIVED (R47, R95, log 13). -/
theorem State.readBytes_cases (s : State) :
    (s.bytesLate = false ∧ s.readBytes = s.bytesReceived) ∨
    (s.bytesLate = true ∧ s.bytesSeen = false ∧
      ∃ n, s.engine.addedBytes = some n ∧ s.readBytes = s.bytesReceived - n) := by
  unfold State.readBytes
  by_cases h : s.bytesLate = true
  · have h' := h
    simp only [State.bytesLate, Bool.and_eq_true, Bool.not_eq_true'] at h'
    obtain ⟨n, hn⟩ := Option.isSome_iff_exists.1 h'.1.1
    exact .inr ⟨h, h'.1.2, n, hn, by rw [if_pos h, hn]; rfl⟩
  · exact .inl ⟨by simpa using h, if_neg h⟩

end Sys2Proof.Machine
end

