-- ==== Sys2Proof/Laws/Memory.lean ====
section
/-!
SUPPORT. The laws of sparse storage: every operation keeps the canonical form, a read after a write, and the reset
storage has the form.
-/
namespace Sys2Proof.Machine

variable {n : Nat}

@[simp] theorem Memory.read_nil (a : Nat) : Memory.read ([] : Memory n) a = none := rfl

theorem Memory.wf_nil : Memory.wf ([] : Memory n) := List.Pairwise.nil

/-- A read of the cell just written gives the value written. -/
@[simp] theorem Memory.read_write_same (m : Memory n) (a : Nat) (v : BitVec n) : (m.write a v).read a = some v := by
  induction m with
  | nil => simp [Memory.write, Memory.read]
  | cons e m ih =>
    obtain ⟨b, u⟩ := e
    simp only [Memory.write]
    split
    · simp [Memory.read]
    · split
      · simp [Memory.read]
      · rename_i h1 h2
        simp [Memory.read, h2, ih]

/-- A write leaves every other cell alone. -/
theorem Memory.read_write_other (m : Memory n) (a b : Nat) (v : BitVec n) (h : b ≠ a) :
    (m.write a v).read b = m.read b := by
  induction m with
  | nil => simp [Memory.write, Memory.read, h]
  | cons e m ih =>
    obtain ⟨c, u⟩ := e
    simp only [Memory.write]
    split
    · simp [Memory.read, h]
    · split
      · rename_i h1 h2
        subst h2
        simp [Memory.read, h]
      · simp [Memory.read, ih]

/-- The addresses a write lists are the old ones and its own. -/
theorem Memory.mem_write {m : Memory n} {a : Nat} {v : BitVec n} {e : Nat × BitVec n} (h : e ∈ m.write a v) :
    e = (a, v) ∨ e ∈ m := by
  induction m with
  | nil => simpa [Memory.write] using h
  | cons f m ih =>
    obtain ⟨c, u⟩ := f
    simp only [Memory.write] at h
    split at h
    · simpa using h
    · split at h
      · rcases List.mem_cons.1 h with h | h
        · exact .inl h
        · exact .inr (List.mem_cons_of_mem _ h)
      · rcases List.mem_cons.1 h with h | h
        · exact .inr (by simp [h])
        · rcases ih h with h | h
          · exact .inl h
          · exact .inr (List.mem_cons_of_mem _ h)

/-- A write keeps the canonical form. -/
theorem Memory.wf_write {m : Memory n} (h : m.wf) (a : Nat) (v : BitVec n) : (m.write a v).wf := by
  induction m with
  | nil => simp [Memory.write, Memory.wf]
  | cons e m ih =>
    obtain ⟨b, u⟩ := e
    have hb : ∀ y ∈ m, b < y.1 := (List.pairwise_cons.1 h).1
    have hm : Memory.wf m := (List.pairwise_cons.1 h).2
    simp only [Memory.write]
    split
    · rename_i hab
      refine List.pairwise_cons.2 ⟨fun y hy => ?_, h⟩
      rcases List.mem_cons.1 hy with rfl | hy
      · exact hab
      · exact hab.trans (hb y hy)
    · split
      · rename_i hab
        subst hab
        exact List.pairwise_cons.2 ⟨hb, hm⟩
      · rename_i h1 h2
        refine List.pairwise_cons.2 ⟨fun y hy => ?_, ih hm⟩
        rcases Memory.mem_write hy with rfl | hy
        · show b < a
          omega
        · exact hb y hy

/-- Writing a run of cells keeps the canonical form. -/
theorem Memory.wf_writeFrom {m : Memory n} (h : m.wf) (k : Nat) (vs : List (BitVec n)) : (m.writeFrom k vs).wf := by
  induction vs generalizing m k with
  | nil => exact h
  | cons v vs ih => exact ih (Memory.wf_write h k v) (k + 1)

/-- Writing a run of cells: the cells of the run hold the values, every other cell is as before. -/
theorem Memory.read_writeFrom (m : Memory n) (k a : Nat) (vs : List (BitVec n)) :
    (m.writeFrom k vs).read a = if k ≤ a ∧ a < k + vs.length then vs[a - k]? else m.read a := by
  induction vs generalizing m k with
  | nil =>
    simp only [Memory.writeFrom, List.length_nil, Nat.add_zero]
    rw [if_neg]
    omega
  | cons v vs ih =>
    simp only [Memory.writeFrom, ih, List.length_cons]
    by_cases hak : a = k
    · subst hak
      simp
    · rw [Memory.read_write_other _ _ _ _ hak]
      by_cases hr : k ≤ a ∧ a < k + (vs.length + 1)
      · rw [if_pos hr, if_pos (by omega)]
        obtain ⟨j, hj⟩ : ∃ j, a - k = j + 1 := ⟨a - k - 1, by omega⟩
        rw [hj, List.getElem?_cons_succ]
        congr 1
        omega
      · rw [if_neg hr, if_neg (by omega)]

/-- A RingWrite keeps the canonical form of the ring (R240). -/
theorem State.ringWrite_wf {s : State} (h : s.ring.wf) (a : Nat) (v : Word16) : (s.ringWrite a v).ring.wf :=
  Memory.wf_write h a v

/-- Storing into a series array keeps the canonical form of every array of the port. -/
theorem Port.storeSeries_wf {q : Port} (h : ∀ arr, (q.series arr).wf) (arr : SeriesArr) (k : Nat) (vs : List F64)
    (arr' : SeriesArr) : ((q.storeSeries arr k vs).series arr').wf := by
  by_cases e : arr' = arr
  · subst e
    have : (q.storeSeries arr' k vs).series arr' = (q.series arr').writeFrom k vs := by
      cases arr' <;> rfl
    rw [this]
    exact Memory.wf_writeFrom (h arr') k vs
  · have : (q.storeSeries arr k vs).series arr' = q.series arr' := by
      cases arr <;> cases arr' <;> first | rfl | exact absurd rfl e
    rw [this]
    exact h arr'

/-- The reset state's storage has the canonical form. -/
theorem reset_memory_wf : State.reset.ring.wf ∧ ∀ q ∈ State.reset.ports, ∀ arr, (q.series arr).wf := by
  refine ⟨Memory.wf_nil, fun q hq arr => ?_⟩
  have : q = Port.reset := (List.mem_replicate.1 hq).2
  subst this
  cases arr <;> exact Memory.wf_nil

end Sys2Proof.Machine
end

