-- ==== Sys2Proof/Laws/Ops.lean ====
section
/-!
SUPPORT. What each shared operation can do, said once: a port command, a step of ENVELOPE, a packet step, the publish of
a frame, a scheduled step, a RingRead.
-/
namespace Sys2Proof.Machine

/-! ### Port commands -/

theorem portCommand_missing {p : Nat} {op : BitVec 8} {arr : BitVec 2} {body : State → Port → Command → State}
    {s : State} (h : s.port? p = none) : portCommand p op arr body s = .next s.busError := by
  simp [portCommand, h]

theorem portCommand_idle {p : Nat} {op : BitVec 8} {arr : BitVec 2} {body : State → Port → Command → State}
    {s : State} {q : Port} (h : s.port? p = some q) (hc : q.cmd = none) :
    portCommand p op arr body s = .next (s.setPort p (q.accept op arr)) := by
  simp [portCommand, h, hc]

theorem portCommand_running {p : Nat} {op : BitVec 8} {arr : BitVec 2} {body : State → Port → Command → State}
    {s : State} {q : Port} {c : Command} (h : s.port? p = some q) (hc : q.cmd = some c) (ho : c.op = op)
    (ha : c.arr = arr) : portCommand p op arr body s = .next (body s q c) := by
  simp [portCommand, h, hc, ho, ha]

theorem portCommand_other {p : Nat} {op : BitVec 8} {arr : BitVec 2} {body : State → Port → Command → State}
    {s : State} {q : Port} {c : Command} (h : s.port? p = some q) (hc : q.cmd = some c)
    (ho : ¬(c.op = op ∧ c.arr = arr)) : portCommand p op arr body s = .next (s.setPort p q.noteOverrun) := by
  simp only [portCommand, h, hc, if_neg ho]

/-- Everything a port command can do in one step. -/
theorem portCommand_cases {p : Nat} {op : BitVec 8} {arr : BitVec 2} {body : State → Port → Command → State}
    {s t : State} (h : portCommand p op arr body s = .next t) :
    (s.port? p = none ∧ t = s.busError) ∨
    (∃ q, s.port? p = some q ∧ q.cmd = none ∧ t = s.setPort p (q.accept op arr)) ∨
    (∃ q c, s.port? p = some q ∧ q.cmd = some c ∧ c.op = op ∧ c.arr = arr ∧ t = body s q c) ∨
    (∃ q c, s.port? p = some q ∧ q.cmd = some c ∧ ¬(c.op = op ∧ c.arr = arr) ∧ t = s.setPort p q.noteOverrun) := by
  cases hp : s.port? p with
  | none =>
    rw [portCommand_missing hp] at h
    exact .inl ⟨rfl, by simpa using h.symm⟩
  | some q =>
    cases hc : q.cmd with
    | none =>
      rw [portCommand_idle hp hc] at h
      exact .inr (.inl ⟨q, rfl, hc, by simpa using h.symm⟩)
    | some c =>
      by_cases ho : c.op = op ∧ c.arr = arr
      · rw [portCommand_running hp hc ho.1 ho.2] at h
        exact .inr (.inr (.inl ⟨q, c, rfl, hc, ho.1, ho.2, by simpa using h.symm⟩))
      · rw [portCommand_other hp hc ho] at h
        exact .inr (.inr (.inr ⟨q, c, rfl, hc, ho, by simpa using h.symm⟩))

/-- A port command never faults and is never refused. -/
theorem portCommand_next (p : Nat) (op : BitVec 8) (arr : BitVec 2) (body : State → Port → Command → State)
    (s : State) : ∃ t, portCommand p op arr body s = .next t := by
  unfold portCommand
  split
  · exact ⟨_, rfl⟩
  · split
    · exact ⟨_, rfl⟩
    · split <;> exact ⟨_, rfl⟩

/-- The port of a written port list. -/
theorem State.port?_setPort_same {s : State} {p : Nat} {q q' : Port} (h : s.port? p = some q) :
    (s.setPort p q').port? p = some q' := by
  obtain ⟨hp, -⟩ := List.getElem?_eq_some_iff.1 h
  simp [State.port?, State.setPort, hp]

theorem State.port?_setPort_other {s : State} {p p' : Nat} {q' : Port} (h : p' ≠ p) :
    (s.setPort p q').port? p' = s.port? p' := by
  simp [State.port?, State.setPort, List.getElem?_set_ne (Ne.symm h)]

/-! ### ENVELOPE -/

/-- Everything a scan step of ENVELOPE can do: the completion after the last bin, a ring read inside a bin, or the ring
read that ends a bin and stores its entries. -/
theorem envelopeScan_cases (p : Nat) (s : State) (q : Port) (c : Command) (sc : Scan) :
    let bins := operandU64 c.a3
    let start := q.snap.toNat - sc.span
    let lo := binLo start sc.span bins sc.bin
    let hi := binHi start sc.span bins sc.bin
    let a := s.ringAddr sc.frame (operandU64 c.a0)
    let mm := widen sc.minMax (s.ringValue q a).toNat
    let sum := sc.sum + (s.ringValue q a).toNat
    (bins ≤ sc.bin ∧ envelopeScan p s q c sc = s.setPort p (q.finishEnvelope c.a3)) ∨
    (sc.bin < bins ∧ sc.frame + 1 < hi ∧
      envelopeScan p s q c sc = { s with draws := s.draws + s.ringDraws q a }.setPort p
        { s.afterRingRead q a with cmd := some { c with work := .scanning (sc.nextFrame mm sum) } }) ∨
    (sc.bin < bins ∧ hi ≤ sc.frame + 1 ∧
      envelopeScan p s q c sc = { s with draws := s.draws + s.ringDraws q a }.setPort p
        { (s.afterRingRead q a).storeBin (operandF64 c.a1) bins sc.bin lo hi mm.1 mm.2 sum with
          cmd := some { c with work := .scanning (sc.nextBin start bins) } }) := by
  intro bins start lo hi a mm sum
  by_cases hb : bins ≤ sc.bin
  · exact .inl ⟨hb, if_pos hb⟩
  · by_cases hf : sc.frame + 1 < hi
    · exact .inr (.inl ⟨Nat.lt_of_not_le hb, hf, (if_neg hb).trans (if_pos hf)⟩)
    · exact .inr (.inr ⟨Nat.lt_of_not_le hb, Nat.le_of_not_lt hf, (if_neg hb).trans (if_neg hf)⟩)

/-- Everything the first step of ENVELOPE can do. -/
theorem envelopeBegin_cases (p : Nat) (s : State) (q : Port) (c : Command) :
    let bins := operandU64 c.a3
    let span := envelopeSpan (min q.snap.toNat s.params.capacity) (operandF64 c.a1) (operandF64 c.a2)
    (∃ code, envelopeError s.params s.active.spf.toNat c = some code ∧
      envelopeBegin p s q c = s.setPort p (q.fail code)) ∨
    (envelopeError s.params s.active.spf.toNat c = none ∧ span = 0 ∧
      envelopeBegin p s q c = s.setPort p ((q.storeEmptyEnvelope (operandF64 c.a1) bins).finishEnvelope c.a3)) ∨
    (envelopeError s.params s.active.spf.toNat c = none ∧ 0 < span ∧
      envelopeBegin p s q c = envelopeScan p s q c (scanStart (q.snap.toNat - span) span bins)) := by
  intro bins span
  unfold envelopeBegin
  split
  · exact .inl ⟨_, ‹_›, rfl⟩
  · by_cases h : span = 0
    · exact .inr (.inl ⟨‹_›, h, if_pos h⟩)
    · exact .inr (.inr ⟨‹_›, Nat.pos_of_ne_zero h, if_neg h⟩)

/-! ### The capture engine -/

/-- A packet step in a state that holds the packet is a step of the engine. -/
theorem execIngressPacket_held {tag : Word16} {caplen wirelen : Word32} {data : List Byte} {s : State}
    (h : s.engine.packet? = some ⟨tag, caplen, wirelen, data⟩) :
    execIngressPacket tag caplen wirelen data s = engineStep s := by
  simp [execIngressPacket, h]

/-- A packet offered to an engine that can take it. -/
theorem execIngressPacket_taken {tag : Word16} {caplen wirelen : Word32} {data : List Byte} {s : State}
    (h : s.accepts = true) : execIngressPacket tag caplen wirelen data s =
      .next (s.takePacket ⟨tag, caplen, wirelen, data⟩) := by
  have he : s.engine.packet? = none := by
    cases hs : s.engine <;> simp_all [State.accepts, State.receiving, Engine.packet?]
  simp [execIngressPacket, he, h]

/-- Everything one step of PUBLISH can do. -/
theorem publishStep_cases {s t : State} {k : Packet} {frame : List Word16} {stage : PubStage}
    (h : publishStep s k frame stage = .next t) :
    (stage = .countFrame ∧
      t = { s.countFrame with engine := .publish k frame .countBytes }) ∨
    (stage = .countBytes ∧
      t = { s.countBytes k.wirelen with engine := .publish k frame .loadW }) ∨
    (stage = .loadW ∧ s.wcount ≠ BitVec.allOnes 64 ∧
      t = { s with engine := .publish k frame (.write s.wcount 0) }) ∨
    (∃ w ch, stage = .write w ch ∧ ch < s.active.spf.toNat ∧
      t = { s.ringWrite (s.ringAddr w.toNat ch) (frame.getD ch 0) with
        engine := .publish k frame (.write w (ch + 1)) }) ∨
    (∃ w ch, stage = .write w ch ∧ ¬ ch < s.active.spf.toNat ∧
      t = { s.publishW w with engine := .publish k frame .finish }) ∨
    (stage = .finish ∧ t = { s with engine := .receive }) := by
  cases stage with
  | countFrame => exact .inl ⟨rfl, by simpa [publishStep] using h.symm⟩
  | countBytes => exact .inr (.inl ⟨rfl, by simpa [publishStep] using h.symm⟩)
  | loadW =>
    simp only [publishStep] at h
    split at h
    · cases h
    · exact .inr (.inr (.inl ⟨rfl, ‹_›, by simpa using h.symm⟩))
  | write w ch =>
    simp only [publishStep] at h
    split at h
    · exact .inr (.inr (.inr (.inl ⟨w, ch, rfl, ‹_›, by simpa using h.symm⟩)))
    · exact .inr (.inr (.inr (.inr (.inl ⟨w, ch, rfl, ‹_›, by simpa using h.symm⟩))))
  | finish => exact .inr (.inr (.inr (.inr (.inr ⟨rfl, by simpa [publishStep] using h.symm⟩))))

/-! ### Steps -/

theorem step_idle {s : State} (h : s.schedule = []) : step s = .next s := by
  simp [step, h]

/-- Everything a step can do when it answers a next state. -/
theorem step_cases {s t : State} (h : step s = .next t) :
    (s.schedule = [] ∧ t = s) ∨
    (∃ a rest, s.schedule = a :: rest ∧ fetch a { s with schedule := rest } = .done t) ∨
    (∃ a rest i s', s.schedule = a :: rest ∧ fetch a { s with schedule := rest } = .run i s' ∧ exec i s' = .next t) := by
  unfold step at h
  split at h
  · exact .inl ⟨‹_›, by simpa using h.symm⟩
  · rename_i a rest hs
    split at h
    · rename_i i s' hf
      exact .inr (.inr ⟨a, rest, i, s', hs, hf, h⟩)
    · rename_i s' hf
      exact .inr (.inl ⟨a, rest, hs, by simpa [hf] using h⟩)
    · cases h

/-! ### Ring reads -/

/-- The choice a RingRead makes is one of the values the word held. -/
theorem State.ringChoice_lt (s : State) (q : Port) (a : Nat) : s.ringChoice q a < (s.heldValues q a).length := by
  unfold State.ringChoice
  split
  · assumption
  · simp [State.heldValues]

end Sys2Proof.Machine
end

