-- ==== Sys2Proof/Laws/PerInstr.lean ====
section
/-!
SUPPORT. The statements made once for each instruction. EncodedLength: a well-formed command word is 8 bytes
(spec/30_encoding.md R114, R115), and an ingress transaction is its header and CAPLEN bytes of DATA (R117).
-/
namespace Sys2Proof.Laws

theorem bytesLE_length (len n : Nat) : (bytesLE len n).length = len := by
  induction len generalizing n with
  | zero => rfl
  | succ len ih => simp [bytesLE, ih]

/-- The bytes of DATA an instruction carries. -/
def EncodedLength.dataBytes : Instr → Nat
  | .ingressPacket _ caplen _ _ => caplen.toNat
  | _ => 0

def EncodedLength.Statement (i : Instr) : Prop :=
  i.wf = true →
    (encode i).length = (if i.space = .ingress then ingressHeaderBytes + EncodedLength.dataBytes i else 8)

theorem EncodedLength.start : EncodedLength.Statement .start := fun _ => rfl
theorem EncodedLength.stop : EncodedLength.Statement .stop := fun _ => rfl
theorem EncodedLength.cfgCommit : EncodedLength.Statement .cfgCommit := fun _ => rfl
theorem EncodedLength.snapshot (p : Nat) : EncodedLength.Statement (.snapshot p) := fun _ => rfl
theorem EncodedLength.getSample (p : Nat) : EncodedLength.Statement (.getSample p) := fun _ => rfl
theorem EncodedLength.envelope (p : Nat) : EncodedLength.Statement (.envelope p) := fun _ => rfl
theorem EncodedLength.ema (p : Nat) (arr : SeriesArr) : EncodedLength.Statement (.ema p arr) := fun _ => rfl
theorem EncodedLength.sma (p : Nat) (arr : SeriesArr) : EncodedLength.Statement (.sma p arr) := fun _ => rfl
theorem EncodedLength.hpf (p : Nat) (arr : SeriesArr) : EncodedLength.Statement (.hpf p arr) := fun _ => rfl
theorem EncodedLength.ingressPacket (tag : Word16) (caplen wirelen : Word32) (data : List Byte) :
    EncodedLength.Statement (.ingressPacket tag caplen wirelen data) := by
  intro h
  have hd : data.length = caplen.toNat := by simpa [Instr.wf] using h
  simp [encode, Instr.space, EncodedLength.dataBytes, bytesLE_length, hd]
theorem EncodedLength.ingressTimeout : EncodedLength.Statement .ingressTimeout := fun _ => rfl
theorem EncodedLength.ingressSrcError : EncodedLength.Statement .ingressSrcError := fun _ => rfl
theorem EncodedLength.ingressKind3 : EncodedLength.Statement .ingressKind3 := fun _ => rfl

end Sys2Proof.Laws
end

