-- ==== Sys2Proof/Tests/Slice0.lean ====
section
/-!
SUPPORT. The model's own tests: the well-formedness smoke test, the decoding of words written out from
spec/30_encoding.md, one or two steps of each instruction with values of spec/95_test_vectors.md and of the rules'
examples, and for every statement with hypotheses a concrete state that meets them (witness_<statement>).
-/
namespace Sys2Proof.Tests

open Sys2Proof Sys2Proof.Machine

/-! ### Helpers -/

/-- A view of the state an outcome goes on with. -/
def view {α : Type} (r : Result) (f : State → α) : Option α :=
  match r with
  | .next s => some (f s)
  | .fault _ => none
  | .refused _ => none

/-- Parameters with C = 2 and the high-pass unit. EXP(−1) is e^−1 rounded (R280's example). -/
def params2 : Params :=
  { Config.resetParams with capacity := 2, hpfPresent := true, expTable := [(0xBFF0000000000000, 0x3FD78B56362CEF38)] }

/-- The configuration of R150's example: two 16-bit samples a frame. -/
def config2 : ParserConfig := ⟨4, 0, 4, 0, 16, 2, 1⟩

/-- Frames 1 and 2 of three in a ring of two slots, channel ch of frame k being 10k + ch, and a port with a snapshot of
3. -/
def base : State :=
  { State.resetWith params2 with
    staged := config2
    active := config2
    wcount := 3
    ring := [(0, 20), (1, 21), (2, 10), (3, 11)]
    ports := [{ Port.reset with snap := 3 }, Port.reset] }

/-- `base` with the engine in a state. -/
def engaged (e : Engine) : State := { base with engine := e }

/-- `base` with actions scheduled. -/
def planned (as : List Action) : State := { base with schedule := as }

/-- A command just accepted. -/
def command (op : BitVec 8) (arr : BitVec 2) (a0 a1 a2 a3 : Word64) : Command := ⟨op, arr, a0, a1, a2, a3, .accepted⟩

/-- Port 0 of `base` holding a command, with the series 1, 2, 3 in X. -/
def holding (c : Command) : Port :=
  { Port.reset with
    snap := 3
    cmd := some c
    x := [(0, 0x3FF0000000000000), (1, 0x4000000000000000), (2, 0x4008000000000000)] }

/-- `base` with port 0 holding a command. -/
def busy (c : Command) : State := { base with ports := [holding c, Port.reset] }

/-- A frame of 0x1234 and 0x00FF in an IPv4 datagram with no link header (R175). -/
def datagram : List Byte :=
  [0x45, 0, 0, 32, 0, 0, 0x40, 0, 0x40, 0x11, 0, 0, 192, 168, 0, 1, 192, 168, 0, 2] ++
    [0x1F, 0x90, 0x1F, 0x91, 0, 12, 0, 0] ++ [0x34, 0x12, 0xFF, 0x00]

def packet : Packet := ⟨4, 32, 60, datagram⟩

/-- An Ethernet header with an EtherType, after `tags` VLAN tags. -/
def ether (tags : List Byte) (et : List Byte) : List Byte := [2, 0, 0, 0, 0, 1, 2, 0, 0, 0, 0, 2] ++ tags ++ et

/-- 0.01, 10.0, 1.0, 2.0, 4.0 and 0.1 as binary64. -/
def f0_01 : F64 := 0x3F847AE147AE147B
def f10 : F64 := 0x4024000000000000
def f1 : F64 := 0x3FF0000000000000
def f2 : F64 := 0x4000000000000000
def f4 : F64 := 0x4010000000000000
def f0_1 : F64 := 0x3FB999999999999A

/-! ### Well-formedness -/

theorem test_wf_refuses_port_255 :
    Instr.wf (.snapshot 255) = false ∧ Instr.wf (.getSample 255) = false ∧ Instr.wf (.envelope 255) = false ∧
    Instr.wf (.ema 255 .x) = false ∧ Instr.wf (.sma 255 .x) = false ∧ Instr.wf (.hpf 255 .x) = false := by decide

theorem test_wf_accepts_port_254 : Instr.wf (.snapshot 254) = true ∧ Instr.wf (.hpf 254 .mean) = true := by decide

theorem test_wf_refuses_wrong_data_length : Instr.wf (.ingressPacket 1 3 3 [0, 0]) = false := by decide

theorem test_wfFor_refuses_absent_port :
    Instr.wfFor Config.resetParams (.envelope 2) = false ∧ Instr.wfFor Config.resetParams (.envelope 1) = true := by
  decide

/-! ### Decoding, from words written out bit by bit -/

/-- R114, R121. -/
theorem test_decode_ctrl :
    decode .ctrl [0x01, 0, 0, 0, 0, 0, 0, 0] = .ok .start ∧
    decode .ctrl [0x02, 0, 0, 0, 0, 0, 0, 0] = .ok .stop ∧
    decode .ctrl [0x03, 0, 0, 0, 0, 0, 0, 0] = .ok .cfgCommit ∧
    decode .ctrl [0x01, 0x01, 0, 0, 0, 0, 0, 0] = .error .reservedBits ∧
    decode .ctrl [0x04, 0, 0, 0, 0, 0, 0, 0] = .error .reservedOpcode ∧
    decode .ctrl [0x00, 0, 0, 0, 0, 0, 0, 0] = .error .reservedOpcode := by decide

/-- R115, R120, R122. -/
theorem test_decode_port :
    decode (.port 5) [0x01, 0, 0, 0, 0, 0, 0, 0] = .ok (.snapshot 5) ∧
    decode (.port 5) [0x02, 0, 0, 0, 0, 0, 0, 0] = .ok (.getSample 5) ∧
    decode (.port 5) [0x03, 0, 0, 0, 0, 0, 0, 0] = .ok (.envelope 5) ∧
    decode (.port 5) [0x10, 0x02, 0, 0, 0, 0, 0, 0] = .ok (.ema 5 .ymax) ∧
    decode (.port 5) [0x11, 0x03, 0, 0, 0, 0, 0, 0] = .ok (.sma 5 .mean) ∧
    decode (.port 5) [0x12, 0x01, 0, 0, 0, 0, 0, 0] = .ok (.hpf 5 .ymin) ∧
    decode (.port 5) [0x01, 0x01, 0, 0, 0, 0, 0, 0] = .error .arrNotZero ∧
    decode (.port 5) [0x10, 0x04, 0, 0, 0, 0, 0, 0] = .error .reservedBits ∧
    decode (.port 5) [0x13, 0, 0, 0, 0, 0, 0, 0] = .error .reservedOpcode ∧
    decode (.port 5) [0x01, 0, 0, 0, 0, 0, 0, 0x80] = .error .reservedBits := by decide

/-- R117 with the layout of log 6: TAG 4, CAPLEN 2, WIRELEN 5 and two bytes of DATA. -/
theorem test_decode_ingress :
    decode .ingress [0x10, 0, 0x08, 0, 0, 0, 0x14, 0, 0, 0, 0, 0xAA, 0xBB] = .ok (.ingressPacket 4 2 5 [0xAA, 0xBB]) ∧
    decode .ingress [0x01, 0, 0, 0, 0, 0, 0, 0, 0, 0, 0] = .ok .ingressTimeout ∧
    decode .ingress [0x02, 0, 0, 0, 0, 0, 0, 0, 0, 0, 0] = .ok .ingressSrcError ∧
    decode .ingress [0x03, 0, 0, 0, 0, 0, 0, 0, 0, 0, 0] = .ok .ingressKind3 ∧
    decode .ingress [0x10, 0, 0x08, 0, 0, 0, 0x14, 0, 0, 0, 0, 0xAA] = .error .dataLength ∧
    decode .ingress [0x01, 0, 0] = .error .shortHeader := by decide

/-- The table's words, and the first step after reset that runs one of them. -/
theorem test_table_words :
    decodeTableWord 64 0x03 = some .cfgCommit ∧ decodeTableWord 64 0x310 = some (.ema 0 .mean) ∧
    decodeTableWord 8 0x02 = some .ingressSrcError ∧
    view (step (State.reset.withFetchWord 64 0x01)) State.ctrlStatusWord = some 1 ∧
    view (step (State.reset.withFetchWord 64 0x11)) (fun s => s.ports.map Port.busy) = some [true, false] ∧
    view (step (State.reset.withFetchWord 8 0x02)) State.ctrlStatusWord = some 4 := by decide

/-! ### Meanings -/

/-- R140: "from reset, wr CTRL, 0x01 gives CTRL_STATUS = 0x0000_0000_0000_0001"; a second START is ERR_STATE. -/
theorem test_start :
    view (exec .start State.reset) State.ctrlStatusWord = some 1 ∧
    view (exec .start (engaged .receive)) State.ctrlStatusWord = some 0x201 := by decide

/-- R142: "while running, wr CTRL, 0x02 gives CTRL_STATUS = 0x3". -/
theorem test_stop :
    view (exec .stop (engaged .receive)) (fun s => (s.ctrlStatusWord, s.grace)) = some (3, true) ∧
    view (exec .stop (engaged (.demux packet))) (fun s => (s.ctrlStatusWord, s.grace)) = some (3, false) := by decide

/-- R150's example, and E1 of the test vectors with a bad split. -/
theorem test_commit :
    view (exec .cfgCommit { State.reset with staged := config2 }) (fun s => (s.ctrlResult, s.active.spf, s.wcount)) =
      some (.ok, 2, 0) ∧
    view (exec .cfgCommit { State.reset with staged := { ParserConfig.default with frameSize := 1300 } })
      (fun s => (s.ctrlResult, s.active)) = some (.cfgBadSplit, .default) := by decide

/-- R246: "writing 0x01 to PCMD(0) while idle gives BUSY = 1, then after the SNAPSHOT step PSTATUS = 0x2". -/
theorem test_snapshot :
    view (exec (.snapshot 1) base) (fun s => s.ports.map Port.statusWord) = some [0, 1] ∧
    view (execRun (.snapshot 1) 2 base) (fun s => s.ports.map (fun q => (q.statusWord, q.snap))) =
      some [(0, 3), (2, 3)] := by decide

/-- R244, R305: the newest frame's second channel, and "GET_SAMPLE with PSNAP = 0 gives PSTATUS = 0x2004". -/
theorem test_getSample :
    view (exec (.getSample 0) (busy (command 2 0 2 1 0 0))) (fun s => s.ports.map Port.sample) = some [21, 0] ∧
    view (execRun (.getSample 1) 2 base) (fun s => s.ports.map Port.statusWord) = some [0, 0x2004] := by decide

/-- R260: two bins of one frame each: (−0.75, 10, 10, 10) and (−0.25, 20, 20, 20). R269: after acceptance, two ring reads
and the completion (PSTATUS 2). -/
theorem test_envelope :
    view (execRun (.envelope 0) 3 (busy (command 3 0 0 f1 f2 2))) (fun s => (s.ports.map (fun q => q.x.take 2)).head?) =
      some (some [(0, 0xBFE8000000000000), (1, 0xBFD0000000000000)]) ∧
    view (execRun (.envelope 0) 3 (busy (command 3 0 0 f1 f2 2))) (fun s => (s.ports.map Port.mean).head?) =
      some (some [(0, f10), (1, 0x4034000000000000)]) ∧
    view (execRun (.envelope 0) 2 (busy (command 3 0 0 f1 f2 2))) (fun s => s.ports.map Port.statusWord) = some [1, 0] ∧
    view (execRun (.envelope 0) 3 (busy (command 3 0 0 f1 f2 2))) (fun s => s.ports.map Port.statusWord) =
      some [2, 0] := by decide +kernel

/-- R260, R266: PSNAP = 0, ENVELOPE(0, 2.0, 4.0, 4) gives X = −2, −1.5, −1, −0.5. -/
theorem test_envelope_empty :
    view (exec (.envelope 0) { busy (command 3 0 0 f2 f4 4) with
        ports := [{ holding (command 3 0 0 f2 f4 4) with snap := 0 }] })
      (fun s => s.ports.map (fun q => (q.x, q.lastBins))) =
      some [([(0, 0xC000000000000000), (1, 0xBFF8000000000000), (2, 0xBFF0000000000000), (3, 0xBFE0000000000000)], 4)] := by
  decide +kernel

/-- R280's example: dt = 0.01, tau_ms = 10.0 on 0, 1, 1, 1. -/
theorem test_ema :
    view (exec (.ema 0 .x) { busy (command 0x10 0 f0_01 f10 4 0) with
        ports := [{ holding (command 0x10 0 f0_01 f10 4 0) with x := [(0, 0), (1, f1), (2, f1), (3, f1)] }] })
      (fun s => s.ports.map Port.x) =
      some [[(0, 0), (1, 0x3FE43A54E4E98864), (2, 0x3FEBAB5557101F8D), (3, 0x3FEE6824F33314F5)]] := by decide +kernel

/-- R283: 1, 2, 3 with w = 3 gives 1.5, 2, 2.5, and w = 0 is the identity, on −0.0 and on a signaling NaN with its payload
too. -/
theorem test_sma :
    view (exec (.sma 0 .x) (busy (command 0x11 0 3 3 0 0))) (fun s => (s.ports.map Port.x).head?) =
      some (some [(0, 0x3FF8000000000000), (1, f2), (2, 0x4004000000000000)]) ∧
    view (exec (.sma 0 .x) { busy (command 0x11 0 0 3 0 0) with
        ports := [{ holding (command 0x11 0 0 3 0 0) with
          x := [(0, f1), (1, 0x8000000000000000), (2, 0x7FF0000000000007)] }] }) (fun s => s.ports.map Port.x) =
      some [[(0, f1), (1, 0x8000000000000000), (2, 0x7FF0000000000007)]] := by decide +kernel

/-- R286's example under SERIES0, and ERR_FEATURE without the unit. -/
theorem test_hpf :
    view (exec (.hpf 0 .x) { busy (command 0x12 0 f0_1 f1 4 0) with
        ports := [{ holding (command 0x12 0 f0_1 f1 4 0) with x := [(0, 0), (1, f1), (2, f1), (3, f1)] }] })
      (fun s => s.ports.map Port.x) =
      some [[(0, 0), (1, 0x3FE3A6F4E9696BDC), (2, 0x3FD82353D2EA8805), (3, 0x3FCDA5D38B02927E)]] ∧
    view (exec (.hpf 0 .x) State.reset) (fun s => s.ports.map Port.statusWord) = some [0x404, 0] := by decide +kernel

/-- R202 to R209: the packet is demuxed, checked, unpacked and published in ten steps after it is taken; E6's samples. -/
theorem test_packet_published :
    view (execRun (.ingressPacket 4 32 60 datagram) 11 (engaged .receive))
      (fun s => (s.wcount, s.bytesReceived, s.ring, s.engine)) =
      some (4, 60, [(0, 20), (1, 21), (2, 0x1234), (3, 0x00FF)], .receive) := by decide

/-- R205: "an ARP packet gives FRAMES_DROPPED +1, DROP_REASON = 0x32". -/
theorem test_packet_dropped :
    view (execRun (.ingressPacket 1 60 60 (ether [] [8, 6] ++ List.replicate 46 0)) 3 (engaged .receive))
      (fun s => (s.framesDropped, s.dropReasonWord, s.engine)) = some (1, 0x32, .receive) := by decide

/-- R203: "RUNNING, timeout leaves every register unchanged". -/
theorem test_timeout :
    view (exec .ingressTimeout (engaged .receive)) (fun s => decide (s = engaged .receive)) = some true := by decide

theorem test_kind3 :
    view (exec .ingressKind3 { engaged .receive with stopPending := true, grace := true }) State.grace = some false := by
  decide

/-- R204: "RUNNING, srcerr gives CTRL_STATUS = 0x4 and IRQ_STATUS = 0x2". -/
theorem test_srcError :
    view (exec .ingressSrcError (engaged .receive)) (fun s => (s.ctrlStatusWord, s.irqStatus)) = some (4, 2) := by decide

/-- R46, R95: a read of FRAMES_RECEIVED (0x108) in PUBLISH may miss the packet being published (choice number 1), until a
read has seen it (choice number 0): then no later one misses it. -/
theorem test_stats_never_go_back :
    view (step { engaged (.publish packet [1, 2] .countBytes) with
        framesReceived := 5, schedule := [.host (.read 0x108 8) 1] }) State.busResp = some (.data 4) ∧
    view (step { engaged (.publish packet [1, 2] .countBytes) with
        framesReceived := 5, schedule := [.host (.read 0x108 8) 0] }) (fun s => (s.busResp, s.framesSeen)) =
      some (.data 5, true) ∧
    view (step { engaged (.publish packet [1, 2] .countBytes) with
        framesReceived := 5, framesSeen := true, schedule := [.host (.read 0x108 8) 1] }) State.busResp =
      some (.data 5) := by decide

/-- R221's example group. -/
theorem test_unpackGroup : unpackGroup 0x01 0x02 0x03 0x04 0xE4 = [0x001, 0x102, 0x203, 0x304] := by decide

/-- E3: two stacked VLAN tags move the payload by 8. -/
theorem test_demux_vlan :
    linkHeader 1 1349 (ether [0x81, 0, 0, 0x0A, 0x88, 0xA8, 0, 0x14] [8, 0]) = .ok 22 := by decide

/-- R262: 0.5 · 5 rounds to 3 frames. -/
theorem test_span_half_up : envelopeSpan 100 0x3FE0000000000000 0x4014000000000000 = 3 := by decide +kernel

/-! ### Witnesses: what the hypotheses of the statements are met by -/

/-- A port whose arrays are the test series or empty is a good one, with no command or an accepted one. -/
theorem port_good (s : State) (q : Port) (hm : s.params.maxBins = 16) (hs : s.wcount = 3) (h1 : q.done = false)
    (h2 : q.err = false) (h3 : q.snap.toNat ≤ 3)
    (h4 : ∀ arr, (q.series arr).wf ∧ ∀ e ∈ q.series arr, e.1 < 16) (h5 : ∀ c, q.cmd = some c → c.good s q)
    (h6 : q.past = []) : q.Good s :=
  ⟨by simp [h1, h2], by rw [hs]; exact h3, fun arr => ⟨(h4 arr).1, by rw [hm]; exact (h4 arr).2⟩, h5,
    fun i ch _ _ e he => by rw [h6] at he; cases he⟩

/-- The engine and the first port of `base` replaced by good ones. -/
theorem base_inv (e : Engine) (as : List Action) (q : Port) (he : e.good base) (hq : q.Good base) :
    State.Inv { base with engine := e, schedule := as, ports := [q, Port.reset] } where
  params_valid := (by decide : params2.valid)
  active_valid := (by decide : config2.validate 1024 = .ok)
  port_count := rfl
  stop_running := fun h => nomatch h
  grace_waiting := fun h => nomatch h
  engine_good := by
    cases e with
    | publish k frame stage => cases stage <;> exact he
    | _ => exact he
  ring_within := (by exact ⟨by decide, by decide⟩ : base.ring.within (2 * 2))
  retained_written := by
    have key : ∀ i < 3, ∀ ch < 2, validIndex 2 3 i = true →
        (base.ring.read (base.ringAddr i ch)).isSome = true := by decide
    exact fun i ch hi hch => key i (of_decide_eq_true hi).1 ch hch hi
  ports_good := by
    intro r hr
    rcases List.mem_cons.1 hr with rfl | hr
    · exact ⟨hq.1, hq.2, hq.3, hq.4, hq.5⟩
    · obtain rfl : r = Port.reset := by simpa using hr
      exact port_good _ _ rfl rfl rfl rfl (by decide)
        (fun arr => by cases arr <;> exact ⟨Memory.wf_nil, fun e h => nomatch h⟩) (fun c h => nomatch h) rfl

/-- A port that holds an accepted command is a good one. -/
theorem holding_good (c : Command) (ho : (c.op = 0x01 ∨ c.op = 0x02 ∨ c.op = 0x03) ∧ c.arr = 0) (hw : c.work = .accepted) :
    (holding c).Good base := by
  refine port_good _ _ rfl rfl rfl rfl (by simp [holding]) (fun arr => ?_) (fun d hd => ?_) rfl
  · have hx : Memory.wf (holding c).x ∧ ∀ e ∈ (holding c).x, e.1 < 16 := by
      simp [holding, Memory.wf]
    cases arr
    · exact hx
    all_goals exact ⟨Memory.wf_nil, fun e h => nomatch h⟩
  · obtain rfl : c = d := by simpa [holding] using hd
    exact ⟨.inl ho, by rw [hw]; trivial⟩

theorem resetPort_good : ({ Port.reset with snap := 3 } : Port).Good base :=
  port_good _ _ rfl rfl rfl rfl (by decide)
    (fun arr => by cases arr <;> exact ⟨Memory.wf_nil, fun e h => nomatch h⟩) (fun c h => nomatch h) rfl

/-- PCMD(1), CTRL, IRQ_STATUS, CFG_PACK_MODE, PARG3(0), entry 15 of MEAN of port 1, and an unmapped address. -/
theorem test_addresses :
    regAt params2 0x1100 = some (.pcmd 1) ∧ regAt params2 0x040 = some .ctrl ∧ regAt params2 0x128 = some .irqStatus ∧
    regAt params2 0x080 = some (.cfg .pack) ∧ regAt params2 0x1030 = some (.parg 0 .arg3) ∧
    regAt params2 0x2C0078 = some (.series 1 .mean 15) ∧ regAt params2 0x2C0080 = none ∧ regAt params2 0x030 = none ∧
    regAt params2 0x1200 = none ∧ regAt params2 0x1048 = none := by decide

theorem witness_DecodeOfEncodeIsTheInstruction :
    Instr.wf (.ingressPacket 0xFFFF 2 0xFFFFFFFF [1, 2]) = true ∧ Instr.wf (.hpf 254 .mean) = true := by decide

theorem witness_CommandWordsHaveOneSpelling :
    (Space.port 3 ≠ .ingress ∧ decode (.port 3) [0x12, 3, 0, 0, 0, 0, 0, 0] = .ok (.hpf 3 .mean)) ∧
    (Space.ctrl ≠ .ingress ∧ decode .ctrl [3, 0, 0, 0, 0, 0, 0, 0] = .ok .cfgCommit) := by decide

theorem witness_StartBeginsASessionOrIsRefused : (engaged .receive).engine ≠ .stopped ∧ base.engine = .stopped := by decide

theorem witness_StopRaisesTheFlag :
    base.engine = .stopped ∧ ((engaged .receive).engine = .receive ∧ (engaged .receive).stopPending = false) ∧
    ((engaged (.demux packet)).engine ≠ .stopped ∧ (engaged (.demux packet)).engine ≠ .receive) ∧
    ({ engaged .receive with stopPending := true }.engine ≠ .stopped ∧
      { engaged .receive with stopPending := true }.stopPending = true) := by decide

theorem witness_CommitIsAllOrNothing :
    (engaged .receive).engine ≠ .stopped ∧
    ((busy (command 1 0 0 0 0 0)).engine = .stopped ∧
      holding (command 1 0 0 0 0 0) ∈ (busy (command 1 0 0 0 0 0)).ports ∧
      (holding (command 1 0 0 0 0 0)).cmd ≠ none) ∧
    ({ base with staged := { config2 with pack := 2 } }.engine = .stopped ∧
      (∀ q ∈ { base with staged := { config2 with pack := 2 } }.ports, q.cmd = none) ∧
      { base with staged := { config2 with pack := 2 } }.staged.validate params2.maxSpf ≠ .ok) ∧
    (base.engine = .stopped ∧ (∀ q ∈ base.ports, q.cmd = none) ∧ base.staged.validate params2.maxSpf = .ok) := by decide

/-- One configuration for each clause, at the boundaries: pack 2, a split off by one, spf 0 and MAX_SPF + 1, bps of the
other mode, a payload one byte short, and two that pass. -/
theorem witness_ValidateReturnsTheFirstFailure :
    ParserConfig.validate 1024 ⟨4, 0, 4, 0, 16, 2, 2⟩ = .cfgBadPackMode ∧
    ParserConfig.validate 1024 ⟨5, 0, 4, 0, 16, 2, 1⟩ = .cfgBadSplit ∧
    ParserConfig.validate 1024 ⟨4, 0, 4, 0, 16, 0, 1⟩ = .cfgBadSpf ∧
    ParserConfig.validate 1024 ⟨2050, 0, 2050, 0, 16, 1025, 1⟩ = .cfgBadSpf ∧
    ParserConfig.validate 1024 ⟨4, 0, 4, 0, 10, 2, 1⟩ = .cfgBadBps ∧
    ParserConfig.validate 1024 ⟨3, 0, 3, 0, 16, 2, 1⟩ = .cfgBadGeometry ∧
    ParserConfig.validate 1024 ⟨1280, 0, 1280, 0, 10, 1023, 0⟩ = .cfgBadGeometry ∧
    ParserConfig.validate 1024 config2 = .ok ∧ ParserConfig.validate 1024 .default = .ok := by decide

/-- A step that changes nothing, a host write of 3 to CTRL, a write of 2 to CTRL, and a reset. -/
theorem witness_OnlyACommitOrResetChangesTheConfiguration :
    view (step (planned [.engine])) (fun t => decide (t.active = config2)) = some true ∧
    view (step { planned [.host (.write 0x040 8 3) 0] with staged := .default })
      (fun t => decide (t.active = .default)) = some true ∧
    view (step { planned [.host (.write 0x040 8 2) 0] with staged := .default })
      (fun t => decide (t.active = config2)) = some true ∧
    view (step (planned [.reset])) (fun t => decide (t.active = .default)) = some true := by decide

theorem witness_IdlePortAcceptsACommand :
    portParts (.hpf 1 .ymax) = some (1, 0x12, 2) ∧ params2.hpfPresent = true ∧ base.ports[1]? = some Port.reset ∧
    Port.reset.cmd = none := by decide

theorem witness_AbsentHighPassReportsErrFeature :
    State.reset.params.hpfPresent = false ∧ State.reset.ports[1]? = some Port.reset ∧ Port.reset.cmd = none := by decide

theorem witness_BusyPortDiscardsTheWordWithOverrun :
    0 < params2.numReaders ∧ (busy (command 1 0 0 0 0 0)).ports[0]? = some (holding (command 1 0 0 0 0 0)) ∧
    (holding (command 1 0 0 0 0 0)).cmd ≠ none ∧
    { busy (command 1 0 0 0 0 0) with schedule := [.host (.write 0x1000 8 2) 0] }.schedule =
      [.host (.write (BitVec.ofNat 32 (0x1000 + 0x100 * 0)) 8 2) 0] := by decide

/-- The reserved CTRL words 0 and 4, and the reserved port words 0, 0x101 and 0x13. -/
theorem witness_IllegalWordsReportErrOpcode :
    (decode .ctrl (bytesLE 8 0)).toOption = none ∧ (decode .ctrl (bytesLE 8 4)).toOption = none ∧
    (decode (.port 1) (bytesLE 8 0)).toOption = none ∧ (decode (.port 1) (bytesLE 8 0x101)).toOption = none ∧
    (decode (.port 1) (bytesLE 8 0x13)).toOption = none ∧
    1 < params2.numReaders ∧ base.ports[1]? = some Port.reset ∧ Port.reset.cmd = none := by decide

theorem witness_PortCommandsTouchOnlyTheirPort :
    Instr.port? (.snapshot 1) = some 1 ∧ view (exec (.snapshot 1) base) (fun _ => true) = some true := by decide

theorem witness_SnapshotTakesTheWriteCounter :
    (busy (command 1 0 0 0 0 0)).ports[0]? = some (holding (command 1 0 0 0 0 0)) ∧
    (holding (command 1 0 0 0 0 0)).cmd = some (command 1 0 0 0 0 0) := by decide

/-- With S = 3 and C = 2: index 0 is too old, 3 is not yet written, 1 is the oldest valid one; channel 2 is none. -/
theorem witness_GetSampleChecksThenReadsOneWord :
    (∀ i ch : Word64, (busy (command 2 0 i ch 0 0)).ports[0]? = some (holding (command 2 0 i ch 0 0)) ∧
      (holding (command 2 0 i ch 0 0)).cmd = some (command 2 0 i ch 0 0)) ∧
    ¬(0 < (3 : Nat) ∧ 3 - 0 ≤ params2.capacity) ∧ ¬(3 < (3 : Nat) ∧ 3 - 3 ≤ params2.capacity) ∧
    ((1 : Nat) < 3 ∧ 3 - 1 ≤ params2.capacity ∧ base.active.spf.toNat ≤ 2) ∧
    ((1 : Nat) < 3 ∧ 3 - 1 ≤ params2.capacity ∧ 1 < base.active.spf.toNat) :=
  ⟨fun _ _ => ⟨rfl, rfl⟩, by decide⟩

theorem witness_GetSampleIsExactWithoutAWriter :
    (busy (command 2 0 1 1 0 0)).ports[0]? = some (holding (command 2 0 1 1 0 0)) ∧
    (holding (command 2 0 1 1 0 0)).cmd = some (command 2 0 1 1 0 0) ∧ (1 : Nat) < 3 ∧ 3 - 1 ≤ params2.capacity ∧
    1 < base.active.spf.toNat ∧ base.ring.read ((1 % params2.capacity) * base.active.spf.toNat + 1) = some 11 ∧
    (∀ e ∈ (holding (command 2 0 1 1 0 0)).past, e.1 ≠ (1 % params2.capacity) * base.active.spf.toNat + 1) := by decide

theorem witness_RacingReadReturnsAnyValueHeldSinceTheSnapshot :
    (view (exec (.snapshot 0) (busy (command 1 0 0 0 0 0))) (fun t => (t.ports[0]?).isSome) = some true ∧
      (busy (command 1 0 0 0 0 0)).ports[0]? = some (holding (command 1 0 0 0 0 0))) ∧
    ((base.ringWrite 2 77).ports[1]?).isSome = true ∧
    (base.heldValues { Port.reset with past := [(2, some 7)] } 2)[1]? = some (some 7) ∧
    base.heldValues Port.reset 2 = [some 10] := by decide

/-- Channel 2, bins 0 and 17, a window of −1.0, a NaN, and a rate of +inf are bad; channel 1, bins 1 and 16, the largest
finite value, +0.0 and −0.0 are good. -/
theorem witness_EnvelopeRefusesBadOperands :
    (∀ ch ws fps bins : Word64, (busy (command 3 0 ch ws fps bins)).ports[0]? = some (holding (command 3 0 ch ws fps bins)) ∧
      (holding (command 3 0 ch ws fps bins)).cmd = some (command 3 0 ch ws fps bins)) ∧
    base.active.spf.toNat ≤ 2 ∧ (0 < base.active.spf.toNat ∧ params2.maxBins < 17) ∧
    (1 < base.active.spf.toNat ∧ (0 : Nat) < 16 ∧ 16 ≤ params2.maxBins ∧ F64.lt 0xBFF0000000000000 0 = true ∧
      F64.isFinite 0x7FF8000000000000 = false ∧ F64.isFinite 0x7FF0000000000000 = false) ∧
    (∀ w ∈ ([0xBFF0000000000000, 0x8000000000000001, 0x7FF8000000000000, 0x7FF0000000000000] : List Word64),
      ¬(w.toNat < 0x7FF0000000000000 ∨ w = 0x8000000000000000)) ∧
    (∀ w ∈ ([0, 1, 0x7FEFFFFFFFFFFFFF, 0x8000000000000000] : List Word64),
      w.toNat < 0x7FF0000000000000 ∨ w = 0x8000000000000000) ∧
    envelopeError params2 2 (command 3 0 1 0x7FEFFFFFFFFFFFFF 1 1) = none ∧
    envelopeError params2 2 (command 3 0 1 0x8000000000000000 0x8000000000000000 16) = none := by
  refine ⟨fun _ _ _ _ => ⟨rfl, rfl⟩, by decide, by decide, by decide +kernel, ?_, ?_, by decide +kernel⟩ <;> simp

/-- A window of 0.0, and a port whose snapshot is 0. -/
theorem witness_EnvelopeOfNoFramesIsTheDegenerateCase :
    (busy (command 3 0 1 0 f4 16)).ports[0]? = some (holding (command 3 0 1 0 f4 16)) ∧
    (holding (command 3 0 1 0 f4 16)).cmd = some (command 3 0 1 0 f4 16) ∧
    envelopeError params2 2 (command 3 0 1 0 f4 16) = none ∧ envelopeSpan (min 3 2) 0 f4 = 0 ∧
    envelopeError params2 2 (command 3 0 0 f2 f4 1) = none ∧ envelopeSpan (min 0 2) f2 f4 = 0 := by decide +kernel

theorem witness_BinsCoverTheSpan :
    (0 < 3 ∧ 0 < 4 ∧ 3 < 4 ∧ 7 ≤ 9 ∧ 9 < 7 + 3) ∧ binLo 7 3 4 0 = binLo 7 3 4 1 ∧ binLo 7 3 4 1 < binLo 7 3 4 2 := by
  decide

/-- 0.5 · 5 = 2.5 rounds to 3; the largest value squared is +inf. -/
theorem witness_SpanRoundsHalvesAwayFromZero :
    F64.mul 0x7FEFFFFFFFFFFFFF 0x7FEFFFFFFFFFFFFF = 0x7FF0000000000000 ∧
    F64.isFinite (F64.mul 0x3FE0000000000000 0x4014000000000000) = true ∧
    2 * 3 * F64.unitScale ≤ 2 * F64.units (F64.mul 0x3FE0000000000000 0x4014000000000000) + F64.unitScale ∧
    2 * F64.units (F64.mul 0x3FE0000000000000 0x4014000000000000) + F64.unitScale < 2 * (3 + 1) * F64.unitScale := by
  decide +kernel

theorem witness_EnvelopeOfAnIdleWriterIsExact :
    (busy (command 3 0 1 f1 f2 16)).Inv ∧
    (busy (command 3 0 1 f1 f2 16)).ports[0]? = some (holding (command 3 0 1 f1 f2 16)) ∧
    (holding (command 3 0 1 f1 f2 16)).cmd = some (command 3 0 1 f1 f2 16) ∧
    (holding (command 3 0 1 f1 f2 16)).past = [] ∧ envelopeError params2 2 (command 3 0 1 f1 f2 16) = none ∧
    0 < envelopeSpan (min 3 2) f1 f2 :=
  ⟨base_inv .stopped [] _ trivial (holding_good _ ⟨.inr (.inr rfl), rfl⟩ rfl), rfl, rfl, rfl, by decide +kernel⟩

theorem witness_RoundedMeanLiesBetweenTheExtremes :
    [0, 65535, 2] ≠ [] ∧ 65535 < 65536 ∧ (∀ v ∈ [0, 65535, 2], 0 ≤ v ∧ v ≤ 65535) := by decide

/-- 2^53 + 1 halves of a unit: a tie between two values. -/
theorem witness_RoundingIsToNearestTiesToEven :
    0 < 2 ∧ F64.roundMag (2 ^ 53 + 1) 2 < F64.infMag ∧ F64.isFinite 0x7FEFFFFFFFFFFFFF = true := by decide +kernel

/-- Two finite values, a finite value and a zero, two zeros, infinities of either sign with each other, with a finite
value and with a zero, and a NaN; and some of the results. -/
theorem witness_FloatOperationsRoundTheExactResult :
    (F64.isFinite f1 = true ∧ F64.isFinite 0xC000000000000000 = true ∧ F64.units 0xC000000000000000 ≠ 0 ∧
      F64.add f1 0xC000000000000000 = 0xBFF0000000000000 ∧ F64.div f1 0xC000000000000000 = 0xBFE0000000000000) ∧
    (F64.isFinite 0x8000000000000000 = true ∧ F64.units 0x8000000000000000 = 0 ∧ F64.units f1 ≠ 0 ∧
      F64.div f1 0x8000000000000000 = 0xFFF0000000000000 ∧ F64.sub 0 0 = 0 ∧
      F64.add 0x8000000000000000 0x8000000000000000 = 0x8000000000000000) ∧
    (F64.isInf 0x7FF0000000000000 = true ∧ F64.isInf 0xFFF0000000000000 = true ∧
      ((0x7FF0000000000000 : F64).getLsbD 63 != (0xFFF0000000000000 : F64).getLsbD 63) = true ∧
      F64.lt 0xFFF0000000000000 0x7FF0000000000000 = true) ∧
    F64.isNaN 0x7FF0000000000001 = true ∧ F64.isNaN f1 = false ∧ F64.maxf f1 f2 = f2 ∧ F64.maxf 0 0x8000000000000000 = 0 := by
  decide +kernel

/-- A series of 17 is too long, one of 3 is smoothed. -/
theorem witness_EmaFollowsItsRecurrence :
    (∀ n : Word64, (busy (command 0x10 0 f0_01 f10 n 0)).ports[0]? = some (holding (command 0x10 0 f0_01 f10 n 0)) ∧
      (holding (command 0x10 0 f0_01 f10 n 0)).cmd = some (command 0x10 0 f0_01 f10 n 0)) ∧
    (0 : BitVec 2) = BitVec.ofNat 2 SeriesArr.x.code ∧ params2.maxBins < 17 ∧ 3 ≤ params2.maxBins ∧
    (∀ (alpha : F64) (old : Nat → F64), ∃ run : Nat → F64, run 0 = old 0 ∧
      ∀ i, run (i + 1) = F64.add (F64.mul alpha (old (i + 1))) (F64.mul (F64.sub 0x3FF0000000000000 alpha) (run i))) :=
  ⟨fun _ => ⟨rfl, rfl⟩, rfl, by decide, by decide, fun alpha old =>
    ⟨fun k => Nat.rec (old 0) (fun i v =>
      F64.add (F64.mul alpha (old (i + 1))) (F64.mul (F64.sub 0x3FF0000000000000 alpha) v)) k, rfl, fun _ => rfl⟩⟩

/-- Widths 0, 1, 3 and 4, and the most negative one. -/
theorem witness_SmaAveragesTheClippedWindow :
    (∀ w n : Word64, (busy (command 0x11 0 w n 0 0)).ports[0]? = some (holding (command 0x11 0 w n 0 0)) ∧
      (holding (command 0x11 0 w n 0 0)).cmd = some (command 0x11 0 w n 0 0)) ∧
    (0 : BitVec 2) = BitVec.ofNat 2 SeriesArr.x.code ∧ params2.maxBins < 17 ∧ 3 ≤ params2.maxBins ∧
    (0 : Word64).toInt < 1 ∧ (0x8000000000000000 : Word64).toInt < 1 ∧
    (1 ≤ (1 : Word64).toInt ∧ (1 : Word64).toInt % 2 = 1 ∧ 2 * ((0 : Nat) : Int) + 1 = (1 : Word64).toInt) ∧
    (1 ≤ (3 : Word64).toInt ∧ (3 : Word64).toInt % 2 = 1 ∧ 2 * ((1 : Nat) : Int) + 1 = (3 : Word64).toInt) ∧
    (1 ≤ (4 : Word64).toInt ∧ (4 : Word64).toInt % 2 = 0 ∧ 2 * ((2 : Nat) : Int) + 1 = (4 : Word64).toInt + 1) :=
  ⟨fun _ _ => ⟨rfl, rfl⟩, by decide⟩

/-- A cutoff of 0.0 passes through, one of 1.0 does not; the recurrence has a solution. -/
theorem witness_HighPassFollowsItsRecurrence :
    (∀ fc n : Word64, (busy (command 0x12 0 f0_1 fc n 0)).ports[0]? = some (holding (command 0x12 0 f0_1 fc n 0)) ∧
      (holding (command 0x12 0 f0_1 fc n 0)).cmd = some (command 0x12 0 f0_1 fc n 0)) ∧
    (0 : BitVec 2) = BitVec.ofNat 2 SeriesArr.x.code ∧ params2.maxBins < 17 ∧ 16 ≤ params2.maxBins ∧
    F64.le 0 0 = true ∧ F64.le f1 0 = false ∧
    (∀ (alpha first : F64) (old : Nat → F64), ∃ y : Nat → F64, y 0 = first ∧
      ∀ i, y (i + 1) = F64.mul alpha (F64.sub (F64.add (y i) (old (i + 1))) (old i))) :=
  ⟨fun _ _ => ⟨rfl, rfl⟩, rfl, by decide, by decide, by decide, by decide, fun alpha first old =>
    ⟨fun k => Nat.rec first (fun i v => F64.mul alpha (F64.sub (F64.add v (old (i + 1))) (old i))) k, rfl, fun _ => rfl⟩⟩

/-- One tag: captured to 13, 17 and 18 bytes, then IPv4 or ARP. -/
theorem witness_VlanTagsMoveTheNetworkHeader :
    (∀ j < 1, be16 (ether [0x81, 0, 0, 1] [8, 0]) (12 + 4 * j) = 0x8100) ∧ 13 < 14 ∧
    (14 + 4 * 1 ≤ 18 ∧ be16 (ether [0x81, 0, 0, 1] [8, 0]) (12 + 4 * 1) = 0x0800) ∧
    (14 + 4 * 1 ≤ 18 ∧ be16 (ether [0x81, 0, 0, 1] [8, 6]) (12 + 4 * 1) = 0x0806) ∧
    (0 < 1 ∧ 10 + 4 * 1 ≤ 17 ∧ 17 < 14 + 4 * 1) := by decide

theorem witness_FixedLinkHeaders :
    linkHeader 2 15 [] = .error .linkTruncated ∧ linkHeader 2 16 [] = .ok 16 ∧
    linkHeader 3 19 [] = .error .linkTruncated ∧ linkHeader 3 20 [] = .ok 20 ∧ linkHeader 4 0 [] = .ok 0 ∧
    linkDemux 0 60 [] = .error .linkUnsupported ∧ linkDemux 5 60 [] = .error .linkUnsupported := by decide

/-- A link header that fails, and the seven cases on datagrams with no link header, at the boundary lengths 19, 20, 27, 28
and UDP lengths 7, 8. -/
theorem witness_Ipv4AndUdpChecksInOrder :
    linkHeader 1 13 [] = .error .linkTruncated ∧ linkDemux 1 13 [] = .error .linkTruncated ∧
    linkHeader 4 32 datagram = .ok 0 ∧ linkDemux 4 19 datagram = .error .ipTruncated ∧
    linkDemux 4 20 (0x65 :: datagram.drop 1) = .error .ipVersion ∧
    linkDemux 4 20 (0x44 :: datagram.drop 1) = .error .ipIhl ∧
    linkDemux 4 20 (datagram.set 9 6) = .error .notUdp ∧
    linkDemux 4 27 datagram = .error .udpTruncated ∧ linkDemux 4 28 (datagram.set 25 7) = .error .udpLength ∧
    linkDemux 4 28 (datagram.set 25 8) = .ok (28, 0) ∧ linkDemux 4 31 datagram = .ok (28, 3) := by decide +kernel

theorem witness_DemuxStaysInsideTheCapture :
    linkDemux 4 32 datagram = .ok (28, 4) ∧
    (∀ k < 32, byteAt datagram k = byteAt (datagram ++ [9]) k) := by decide +kernel

theorem witness_UnpackedSamplesFollowTheFormulas :
    (config2.validate 1024 = .ok ∧ 28 + config2.frameSize.toNat ≤ datagram.length ∧ config2.pack = 1 ∧
      1 < config2.spf.toNat) ∧
    (ParserConfig.validate 1024 ⟨5, 0, 5, 0, 10, 4, 0⟩ = .ok ∧ 27 + 5 ≤ datagram.length) := by decide

theorem witness_UnpackIgnoresHeaderAndTail :
    ∀ k < 2, ([9, 1, 2, 9] : List Byte)[0 + 1 + k]? = ([7, 1, 2] : List Byte)[0 + 1 + k]? := by decide

theorem witness_PackedGroupRoundTrip : (0x3FF : Word16).toNat < 1024 ∧ (0 : Word16).toNat < 1024 := by decide

/-- MAX_CAPLEN and one more, with and without GRACE. -/
theorem witness_PacketIsTakenInReceive :
    ((engaged .receive).engine = .receive ∧ (engaged .receive).stopPending = false) ∧
    ({ engaged .receive with stopPending := true, grace := true }.engine = .receive ∧
      { engaged .receive with stopPending := true, grace := true }.grace = true) ∧
    params2.maxCaplen < 1350 ∧ 1349 ≤ params2.maxCaplen := by decide

/-- Lengths 4 and 3 against a frame size of 4, and a drop. -/
theorem witness_LengthCheckIsStrictAndDropsCountOnce :
    (engaged (.lengthCheck packet 28 4)).engine = .lengthCheck ⟨4, 32, 60, datagram⟩ 28 4 ∧
    4 = base.active.frameSize.toNat ∧ 3 ≠ base.active.frameSize.toNat ∧
    (engaged (.drop packet .notUdp)).engine = .drop ⟨4, 32, 60, datagram⟩ .notUdp := by decide

theorem witness_AppendWritesThenPublishes :
    (engaged (.publish packet [1, 2] (.write 3 1))).engine = .publish packet [1, 2] (.write 3 1) ∧
    1 < base.active.spf.toNat ∧ base.active.spf.toNat ≤ 2 := by decide

theorem witness_TimeoutAndKindThreeDoNothing :
    (engaged .receive).engine = .receive ∧ (engaged .receive).stopPending = false := by decide

theorem witness_SourceErrorEndsTheSession :
    { engaged .receive with stopPending := true, grace := true }.engine = .receive ∧
    { engaged .receive with stopPending := true, grace := true }.grace = true := by decide

theorem witness_TheStopFlagEndsTheSession :
    ((planned [.offer (encode .ingressTimeout)]).schedule = [.offer (encode .ingressTimeout)] ∧
      decode .ingress (encode .ingressTimeout) = .ok .ingressTimeout ∧ base.engine ≠ .receive) ∧
    ({ engaged .receive with stopPending := true, schedule := [.engine] }.schedule = [.engine] ∧
      { engaged .receive with stopPending := true, schedule := [.engine] }.engine = .receive ∧
      { engaged .receive with stopPending := true, schedule := [.engine] }.grace = false) ∧
    { engaged .receive with schedule := [.engine] }.stopPending = false := by decide

theorem demux_good : (engaged (.demux packet)).Inv :=
  base_inv (.demux packet) [] _ ⟨by decide, by decide⟩ resetPort_good

/-- A packet that is published, one whose UDP length gives 3 bytes, which is dropped for its length, and one that is no UDP,
which is dropped for LinkDemux's reason. -/
theorem witness_EveryPacketIsPublishedOrDropped :
    ((engaged (.demux packet)).Inv ∧ (engaged (.demux packet)).engine = .demux packet ∧
      (engaged (.demux packet)).wcount ≠ 0xFFFFFFFFFFFFFFFF ∧
      linkDemux packet.tag packet.caplen.toNat packet.data = .ok (28, config2.frameSize.toNat) ∧
      unpackFrame config2 28 packet.data = some [0x1234, 0x00FF]) ∧
    ((engaged (.demux ⟨4, 32, 60, datagram.set 25 11⟩)).Inv ∧
      (∀ off, linkDemux 4 32 (datagram.set 25 11) ≠ .ok (off, config2.frameSize.toNat)) ∧
      linkDemux 4 32 (datagram.set 25 11) = .ok (28, 3) ∧ 3 ≠ config2.frameSize.toNat) ∧
    ((engaged (.demux ⟨4, 32, 60, datagram.set 9 6⟩)).Inv ∧
      linkDemux 4 32 (datagram.set 9 6) = .error .notUdp) :=
  ⟨⟨demux_good, rfl, by decide, by decide +kernel, by decide +kernel⟩,
    ⟨base_inv (.demux ⟨4, 32, 60, datagram.set 25 11⟩) [] _ ⟨by decide, by decide⟩ resetPort_good, fun off h => by
      have e : linkDemux 4 32 (datagram.set 25 11) = .ok (28, 3) := by decide +kernel
      rw [e] at h
      have h2 := congrArg Prod.snd (Except.ok.inj h)
      have h3 : 3 = config2.frameSize.toNat := h2
      exact absurd h3 (by decide), by decide +kernel, by decide⟩,
    base_inv (.demux ⟨4, 32, 60, datagram.set 9 6⟩) [] _ ⟨by decide, by decide⟩ resetPort_good, by decide +kernel⟩

theorem publish_good (ch : Nat) (hch : ch = 0) :
    State.Inv { base with engine := .publish packet [1, 2] (.write 3 ch), schedule := [.engine] } :=
  base_inv (.publish packet [1, 2] (.write 3 ch)) [.engine] _
    ⟨by decide, by subst hch; exact ⟨by decide, by decide, by decide, fun c h => absurd h (Nat.not_lt_zero c)⟩⟩ resetPort_good

/-- While frame 3 is written over frame 1, frame 2 stays. -/
theorem witness_StepsKeepEveryFrameButTheOldest :
    State.Inv { base with engine := .publish packet [1, 2] (.write 3 0), schedule := [.engine] } ∧
    view (step { base with engine := .publish packet [1, 2] (.write 3 0), schedule := [.engine] })
      (fun t => decide (3 ≤ t.wcount.toNat)) = some true ∧
    2 < base.wcount.toNat ∧ base.wcount.toNat - 2 < params2.capacity ∧ 1 < base.active.spf.toNat :=
  ⟨publish_good 0 rfl, by decide⟩

/-- A write of the append, the publish, an accepted commit and a reset, all from states that satisfy Inv or differ from
one in the stage, the staged configuration or the schedule. -/
theorem witness_WriteCounterMovesByOneOrIsRebuilt :
    State.Inv { base with engine := .publish packet [1, 2] (.write 3 0), schedule := [.engine] } ∧
    view (step { base with engine := .publish packet [1, 2] (.write 3 0), schedule := [.engine] }) State.wcount = some 3 ∧
    view (step { base with engine := .publish packet [1, 2] (.write 3 2), schedule := [.engine] })
      (fun t => (t.wcount, t.irqStatus)) = some (4, 1) ∧
    view (step (planned [.host (.write 0x040 8 3) 0])) (fun t => (t.wcount, t.ctrlResult)) = some (0, .ok) ∧
    view (step (planned [.reset])) State.wcount = some 0 :=
  ⟨publish_good 0 rfl, by decide⟩

theorem witness_StepRunsTheDecodedInstruction :
    decode .ctrl (bytesLE 8 (3 : Word64).toNat) = .ok .cfgCommit ∧
    (1 < params2.numReaders ∧ base.ports[1]? = some Port.reset ∧ Port.reset.cmd = none ∧
      decode (.port 1) (bytesLE 8 (0x310 : Word64).toNat) = .ok (.ema 1 .mean)) ∧
    (decode .ingress (encode (.ingressPacket 4 32 60 datagram)) = .ok (.ingressPacket 4 32 60 datagram) ∧
      (engaged .receive).engine = .receive ∧ (engaged .receive).stopPending = false) ∧
    (engaged (.demux packet)).engine.packet? = some packet ∧
    ((busy (command 0x11 3 0 0 0 0)).ports[0]? = some (holding (command 0x11 3 0 0 0 0)) ∧
      (holding (command 0x11 3 0 0 0 0)).cmd = some (command 0x11 3 0 0 0 0) ∧
      decode (.port 0) (bytesLE 8 (0x11 + 256 * 3)) = .ok (.sma 0 .mean)) := by decide

/-- A size of 4, address 0x44, the unmapped 0x30, and a write to the read-only W and to PSTATUS(1). -/
theorem witness_ReadsAndBadAccessesChangeNothing :
    (planned [.host (.read 0x100 8) 0]).schedule = [.host (.read 0x100 8) 0] ∧ (4 : Nat) ≠ 8 ∧ 0x44 % 8 ≠ 0 ∧
    regAt params2 0x30 = none ∧
    (regAt params2 (0x100 : Word32).toNat = some .wcount ∧ Reg.wcount.readOnly = true ∧
      (planned [.host (.write 0x100 8 9) 0]).schedule = [.host (.write 0x100 8 9) 0]) ∧
    (regAt params2 (0x1108 : Word32).toNat = some (.pstatus 1) ∧ (Reg.pstatus 1).readOnly = true) := by decide

/-- ID, FEATURES, CTRL (write-only), BYTES_RECEIVED with the packet counted or missed, PSNAP(0) and an entry of a busy and
of an idle port. -/
theorem witness_HostReadsReturnTheRegister :
    params2.valid ∧ regAt params2 (0x000 : Word32).toNat = some .id ∧ regAt params2 (0x020 : Word32).toNat = some .features ∧
    regAt params2 (0x110 : Word32).toNat = some .bytesReceived ∧ regAt params2 (0x1010 : Word32).toNat = some (.psnap 0) ∧
    regAt params2 (0x100008 : Word32).toNat = some (.series 0 .x 1) ∧
    view (step (planned [.host (.read 0x000 8) 0])) State.busResp = some (.data 0x0000000755445053) ∧
    view (step (planned [.host (.read 0x020 8) 0])) State.busResp = some (.data 0x102) ∧
    view (step (planned [.host (.read 0x040 8) 0])) State.busResp = some (.data 0) ∧
    view (step (planned [.host (.read 0x1010 8) 0])) State.busResp = some (.data 3) ∧
    view (step { engaged (.publish packet [1, 2] .loadW) with
        bytesReceived := 100, schedule := [.host (.read 0x110 8) 1] }) State.busResp = some (.data 40) ∧
    view (step { engaged (.publish packet [1, 2] .loadW) with
        bytesReceived := 100, bytesSeen := true, schedule := [.host (.read 0x110 8) 1] }) State.busResp =
      some (.data 100) ∧
    view (step { base with
        ports := [{ holding (command 1 0 0 0 0 0) with cmd := none }, Port.reset],
        schedule := [.host (.read 0x100008 8) 0] }) State.busResp = some (.data 0x4000000000000000) := by decide +kernel

theorem witness_EveryRegisterIsAtItsAddress : params2.valid := by decide

theorem witness_SeriesWindowWritesOneEntry :
    regAt params2 (0x2C0078 : Word32).toNat = some (.series 1 .mean 15) ∧
    (base.ports[1]? = some Port.reset ∧ Port.reset.cmd = none) ∧
    (regAt params2 (0x100000 : Word32).toNat = some (.series 0 .x 0) ∧
      (busy (command 1 0 0 0 0 0)).ports[0]? = some (holding (command 1 0 0 0 0 0)) ∧
      (holding (command 1 0 0 0 0 0)).cmd ≠ none) := by decide

theorem witness_CfgWritesOnlyStage :
    regAt params2 (0x080 : Word32).toNat = some (.cfg .pack) ∧ CfgField.bps ≠ .pack ∧
    (planned [.host (.write 0x080 8 1) 0]).schedule = [.host (.write 0x080 8 1) 0] := by decide

theorem witness_PargWritesReadBack :
    regAt params2 (0x1130 : Word32).toNat = some (.parg 1 .arg3) ∧ base.ports[1]? = some Port.reset ∧
    (planned [.host (.write 0x1130 8 7) 0, .host (.read 0x1130 8) 0]).schedule =
      [.host (.write 0x1130 8 7) 0, .host (.read 0x1130 8) 0] := by decide

theorem witness_IrqStatusIsWriteOneToClear :
    (planned [.host (.write 0x128 8 1) 0]).schedule = [.host (.write 0x128 8 1) 0] ∧
    (planned [.host (.write 0x130 8 7) 0]).schedule = [.host (.write 0x130 8 7) 0] ∧
    view (step (planned [.host (.write 0x130 8 7) 0])) State.irqEnable = some 3 ∧
    { base with irqStatus := 3, irqEnable := 2 }.notify = true ∧ { base with irqStatus := 1, irqEnable := 2 }.notify = false := by
  decide

theorem witness_ResetSetsEveryElement : (planned [.reset, .engine]).schedule = [.reset, .engine] := by decide

theorem witness_OnlyTheCounterLimitFaults :
    step { base with
        engine := .publish packet [1, 2] .loadW, wcount := 0xFFFFFFFFFFFFFFFF, schedule := [.engine] } =
      .fault .wOverflow ∧
    step (planned [.offer [1, 2]]) = .refused .malformedIngress := ⟨rfl, rfl⟩

theorem witness_InvariantIsKeptByEveryStep :
    State.Inv { base with engine := .publish packet [1, 2] (.write 3 0), schedule := [.engine] } ∧
    view (step { base with engine := .publish packet [1, 2] (.write 3 0), schedule := [.engine] }) (fun _ => true) =
      some true :=
  ⟨publish_good 0 rfl, by decide⟩

theorem witness_InvariantHoldsAtReset : params2.valid ∧ Config.resetParams.valid := by decide

end Sys2Proof.Tests
end

section
/-!
The first rules of the scope family: HPF without its unit, and the state after reset.
-/
namespace Sys2Proof.Machine

/-- R246: an absent HPF unit turns the acceptance of an idle port into ERR_FEATURE. -/
theorem execHpf_absent_idle {p : Nat} {s : State} {q : Port} (arr : SeriesArr) (hf : s.params.hpfPresent = false)
    (hq : s.port? p = some q) (hc : q.cmd = none) :
    execHpf p arr s = .next (s.setPort p ((q.accept 0x12 (arrField arr)).fail .errFeature)) := by
  simp [execHpf, hq, hf, Port.busy, hc]

/-- Failing right after the acceptance leaves an idle port idle and writes only its status (R246, R305). -/
theorem Port.fail_accept_of_idle {q : Port} (hc : q.cmd = none) (op : BitVec 8) (arr : BitVec 2) (code : ResultCode) :
    (q.accept op arr).fail code = { q with done := false, err := true, overrun := false, result := code } := by
  simp only [Port.fail, Port.accept, hc]

/-- Settles O12, through the acceptance of the idle port and its immediate failure. -/
theorem absentHighPassReportsErrFeature : Obligations.AbsentHighPassReportsErrFeature := by
  intro p arr s q hf hq hc
  have hexec : exec (.hpf p arr) s = execHpf p arr s := rfl
  rw [hexec, execHpf_absent_idle arr hf hq hc, Port.fail_accept_of_idle hc]
  rfl

/-- R35, R151: the default geometry passes Validate wherever MAX_SPF is one R7 allows. -/
theorem ParserConfig.validate_default {maxSpf : Nat} (h : 1024 ≤ maxSpf) :
    ParserConfig.default.validate maxSpf = .ok := by
  have hspf : ¬ maxSpf < 1024 := by omega
  simp [ParserConfig.validate, ParserConfig.default, ParserConfig.geometryOk, hspf]

/-- No frame index is valid for a snapshot of 0 (R45). -/
theorem validIndex_zero (capacity i : Nat) : validIndex capacity 0 i = false := by
  simp [validIndex]

theorem Memory.within_nil {n : Nat} (bound : Nat) : Memory.within ([] : Memory n) bound :=
  ⟨Memory.wf_nil, by simp⟩

/-- A port after reset is idle, with a snapshot of 0 and nothing stored, so it is good in every state (R330). -/
theorem Port.reset_good (s : State) : Port.reset.Good s where
  status := by simp [Port.reset, Port.busy]
  snap_le := Nat.zero_le _
  series arr := by cases arr <;> exact Memory.within_nil _
  command c hc := by cases hc
  past_written i ch _ _ e he := by cases he

/-- The state after reset satisfies the invariant for all parameters R7 allows (R330, R37). -/
theorem State.resetWith_inv {P : Params} (hP : P.valid) : (State.resetWith P).Inv where
  params_valid := hP
  active_valid := by
    obtain ⟨-, -, hspf, -⟩ := hP
    exact ParserConfig.validate_default hspf
  port_count := List.length_replicate
  stop_running h := by cases h
  grace_waiting h := by cases h
  engine_good := trivial
  ring_within := Memory.within_nil _
  retained_written i ch hi := by
    have hz : (State.resetWith P).wcount.toNat = 0 := rfl
    rw [hz, validIndex_zero] at hi
    cases hi
  ports_good q hq := by
    rw [List.eq_of_mem_replicate hq]
    exact Port.reset_good _

/-- Settles O60: the reset parameters of the model are among those R7 allows. -/
theorem invariantHoldsAtReset : Obligations.InvariantHoldsAtReset :=
  ⟨fun _ hP => State.resetWith_inv hP, State.resetWith_inv (by decide)⟩

end Sys2Proof.Machine
end

section
/-!
Sign and magnitude of a binary64 pattern, and how a magnitude pattern grows with the magnitude it stands for.
-/
namespace Sys2Proof.F64

/-! ### Sign and magnitude -/

theorem mag_lt (a : F64) : mag a < 2 ^ 63 := Nat.mod_lt _ (by decide)

/-- A pattern is its sign bit above its magnitude pattern. -/
theorem toNat_eq_sign_mag (a : F64) : a.toNat = (if sign a then 2 ^ 63 else 0) + mag a := by
  have hsign : sign a = decide (2 ^ 63 ≤ a.toNat) := by
    have hmsb := BitVec.msb_eq_decide a
    rwa [BitVec.msb_eq_getLsbD_last] at hmsb
  have hlt := a.isLt
  simp only [hsign, mag, decide_eq_true_eq]
  split <;> omega

theorem toNat_ofMag (s : Bool) {m : Nat} (h : m < 2 ^ 63) : (ofMag s m).toNat = (if s then 2 ^ 63 else 0) + m := by
  rw [ofMag, BitVec.toNat_ofNat]
  split <;> omega

theorem mag_ofMag (s : Bool) {m : Nat} (h : m < 2 ^ 63) : mag (ofMag s m) = m := by
  rw [mag, toNat_ofMag s h]
  split <;> omega

theorem ofMag_sign_mag (a : F64) : ofMag (sign a) (mag a) = a :=
  BitVec.eq_of_toNat_eq (by rw [toNat_ofMag _ (mag_lt a), ← toNat_eq_sign_mag])

theorem eq_of_sign_mag {a b : F64} (hs : sign a = sign b) (hm : mag a = mag b) : a = b := by
  rw [← ofMag_sign_mag a, hs, hm, ofMag_sign_mag]

@[simp] theorem sign_neg (a : F64) : sign (neg a) = !sign a := by
  simp [sign, neg]

@[simp] theorem mag_neg (a : F64) : mag (neg a) = mag a := by
  rw [mag, neg, BitVec.toNat_xor, Nat.xor_mod_two_pow]
  exact Nat.xor_zero _

theorem toNat_neg (a : F64) : (neg a).toNat = (a.toNat + 2 ^ 63) % 2 ^ 64 := by
  have hlt := mag_lt a
  rw [toNat_eq_sign_mag (neg a), toNat_eq_sign_mag a, sign_neg, mag_neg]
  cases sign a <;> simp <;> omega

/-! ### The magnitude a pattern stands for -/

/-- The units of 2^-1074 that a magnitude pattern stands for. -/
def magUnits (m : Nat) : Nat := if m / 2 ^ 52 = 0 then m else (2 ^ 52 + m % 2 ^ 52) * 2 ^ (m / 2 ^ 52 - 1)

theorem units_eq_magUnits (a : F64) : units a = magUnits (mag a) := rfl

theorem units_ofMag (s : Bool) {m : Nat} (h : m < 2 ^ 63) : units (ofMag s m) = magUnits m := by
  rw [units_eq_magUnits, mag_ofMag s h]

/-- A significand of 53 bits, or one more after a carry, on `k` exponent steps; below them a subnormal one. -/
theorem magUnits_step {k q : Nat} (hk : k = 0 ∨ 2 ^ 52 ≤ q) (hq : q ≤ 2 ^ 53) :
    magUnits (k * 2 ^ 52 + q) = q * 2 ^ k := by
  unfold magUnits
  obtain hsub | hnorm | hcarry : q < 2 ^ 52 ∨ (2 ^ 52 ≤ q ∧ q < 2 ^ 53) ∨ q = 2 ^ 53 := by omega
  · obtain rfl : k = 0 := by omega
    rw [if_pos (by omega)]
    simp
  · have he : (k * 2 ^ 52 + q) / 2 ^ 52 = k + 1 := by omega
    have hf : 2 ^ 52 + (k * 2 ^ 52 + q) % 2 ^ 52 = q := by omega
    rw [he, hf, if_neg (by omega), Nat.add_sub_cancel]
  · have he : (k * 2 ^ 52 + q) / 2 ^ 52 = k + 1 + 1 := by omega
    have hf : (k * 2 ^ 52 + q) % 2 ^ 52 = 0 := by omega
    rw [he, hf, if_neg (by omega), Nat.add_sub_cancel, hcarry, Nat.pow_succ]
    ring

/-- Every magnitude pattern is a significand on some exponent steps. -/
theorem exists_step (m : Nat) : ∃ k q, m = k * 2 ^ 52 + q ∧ (k = 0 ∨ 2 ^ 52 ≤ q) ∧ q < 2 ^ 53 :=
  ⟨m / 2 ^ 52 - 1, m - (m / 2 ^ 52 - 1) * 2 ^ 52, by omega, by omega, by omega⟩

theorem magUnits_strictMono : StrictMono magUnits := by
  refine strictMono_nat_of_lt_succ fun m => ?_
  obtain ⟨k, q, rfl, hk, hq⟩ := exists_step m
  rw [magUnits_step hk hq.le, Nat.add_assoc, magUnits_step (by omega) hq, Nat.succ_mul]
  exact Nat.lt_add_of_pos_right (Nat.two_pow_pos k)

@[simp] theorem magUnits_zero : magUnits 0 = 0 := rfl

theorem units_eq_zero_iff (a : F64) : units a = 0 ↔ mag a = 0 := by
  simpa [units_eq_magUnits] using magUnits_strictMono.injective.eq_iff (a := mag a) (b := 0)

end Sys2Proof.F64
end
section
/-!
Rounding (R13): the exact value lies between two neighbouring magnitude patterns, and `roundMag` takes the nearer one.
-/
namespace Sys2Proof.F64

/-- The exponent steps `roundMag` rounds on. -/
def roundStep (n d : Nat) : Nat := Nat.log2 (n / d) - 52

/-- The last magnitude pattern that is not above `n / d` units. -/
def floorMag (n d : Nat) : Nat := roundStep n d * 2 ^ 52 + n / (d * 2 ^ roundStep n d)

/-- `roundMag` before it saturates at infinity. -/
def nearMag (n d : Nat) : Nat := roundStep n d * 2 ^ 52 + roundQuot n (d * 2 ^ roundStep n d)

theorem roundMag_eq_min (n d : Nat) : roundMag n d = min (nearMag n d) infMag := rfl

theorem roundMag_lt (n d : Nat) : roundMag n d < 2 ^ 63 :=
  (Nat.min_le_right _ _).trans_lt (by decide)

/-- The steps leave a significand of 53 bits, or a subnormal one. -/
theorem quot_roundStep_bounds (n d : Nat) :
    (roundStep n d = 0 ∨ 2 ^ 52 ≤ n / (d * 2 ^ roundStep n d)) ∧ n / (d * 2 ^ roundStep n d) < 2 ^ 53 := by
  rw [← Nat.div_div_eq_div_mul]
  constructor
  · by_cases hk : roundStep n d = 0
    · exact .inl hk
    · right
      have hlog : Nat.log2 (n / d) = 52 + roundStep n d := by unfold roundStep at *; omega
      have hpos : n / d ≠ 0 := fun h => by simp [roundStep, h] at hk
      rw [Nat.le_div_iff_mul_le (Nat.two_pow_pos _), ← Nat.pow_add, ← hlog]
      exact Nat.log2_self_le hpos
  · apply Nat.div_lt_of_lt_mul
    rw [← Nat.pow_add]
    exact Nat.lt_log2_self.trans_le (Nat.pow_le_pow_right (by decide) (by unfold roundStep; omega))

theorem magUnits_floorMag (n d : Nat) :
    magUnits (floorMag n d) = n / (d * 2 ^ roundStep n d) * 2 ^ roundStep n d ∧
    magUnits (floorMag n d + 1) = (n / (d * 2 ^ roundStep n d) + 1) * 2 ^ roundStep n d := by
  obtain ⟨hk, hq⟩ := quot_roundStep_bounds n d
  constructor
  · rw [floorMag, magUnits_step hk hq.le]
  · rw [floorMag, Nat.add_assoc, magUnits_step (hk.imp_right Nat.le_succ_of_le) hq]

/-- The exact value lies between the floor pattern and the next one; the rounding compares it with their midpoint and
breaks a tie by the parity of the floor pattern. -/
theorem nearMag_spec (n : Nat) {d : Nat} (hd : 0 < d) :
    let lo := magUnits (floorMag n d) * d
    let hi := magUnits (floorMag n d + 1) * d
    lo ≤ n ∧ n < hi ∧
    nearMag n d =
      if lo + hi < 2 * n ∨ (lo + hi = 2 * n ∧ floorMag n d % 2 = 1) then floorMag n d + 1 else floorMag n d := by
  obtain ⟨hlo, hhi⟩ := magUnits_floorMag n d
  dsimp only
  rw [hlo, hhi, nearMag, floorMag, roundQuot]
  generalize roundStep n d = k
  have hD : 0 < d * 2 ^ k := Nat.mul_pos hd (Nat.two_pow_pos k)
  have hdiv := Nat.div_add_mod n (d * 2 ^ k)
  have hmod := Nat.mod_lt n hD
  have hlo' : n / (d * 2 ^ k) * 2 ^ k * d = d * 2 ^ k * (n / (d * 2 ^ k)) := by ring
  have hhi' : (n / (d * 2 ^ k) + 1) * 2 ^ k * d = d * 2 ^ k * (n / (d * 2 ^ k)) + d * 2 ^ k := by ring
  rw [hlo', hhi']
  generalize d * 2 ^ k * (n / (d * 2 ^ k)) = lo at *
  generalize n % (d * 2 ^ k) = r at *
  generalize n / (d * 2 ^ k) = q at *
  generalize d * 2 ^ k = D at *
  refine ⟨by omega, by omega, ?_⟩
  split <;> split <;> omega

/-- How far `u` units are from `n / d` units, in parts of `1 / d`. -/
def roundErr (n d u : Nat) : Nat := ((u * d : Nat) - (n : Nat) : Int).natAbs

/-- No magnitude pattern is nearer than the rounded one, and where another is as near the rounded one is even. -/
theorem nearMag_nearest (n : Nat) {d : Nat} (hd : 0 < d) (x : Nat) :
    roundErr n d (magUnits (nearMag n d)) ≤ roundErr n d (magUnits x) ∧
    (roundErr n d (magUnits (nearMag n d)) = roundErr n d (magUnits x) → x ≠ nearMag n d →
      nearMag n d % 2 = 0) := by
  obtain ⟨hlo, hhi, hnear⟩ := nearMag_spec n hd
  have hmono : StrictMono fun m => magUnits m * d := fun _ _ h => Nat.mul_lt_mul_of_pos_right (magUnits_strictMono h) hd
  have hlt {a b : Nat} (h : a < b) : magUnits a * d < magUnits b * d := hmono h
  rw [hnear]
  generalize floorMag n d = m at *
  unfold roundErr
  obtain hx | rfl | rfl | hx : x < m ∨ x = m ∨ x = m + 1 ∨ m + 1 < x := by omega
  · have := hlt hx
    split <;> omega
  · split <;> omega
  · split <;> omega
  · have := hlt hx
    split <;> omega

/-- The midpoint above the largest finite value, doubled. -/
theorem magUnits_around_infMag : magUnits (infMag - 1) + magUnits infMag = 2 * ((2 ^ 54 - 1) * 2 ^ 2044) := by
  have hmax : infMag - 1 = (2044 + 1) * 2 ^ 52 + (2 ^ 53 - 1) := by decide
  have hinf : infMag = (2044 + 1) * 2 ^ 52 + 2 ^ 53 := by decide
  have hsum (k : Nat) : (2 ^ 53 - 1) * 2 ^ (k + 1) + 2 ^ 53 * 2 ^ (k + 1) = 2 * ((2 ^ 54 - 1) * 2 ^ k) := by
    rw [Nat.pow_succ]
    omega
  rw [hmax, magUnits_step (.inr (by decide)) (by decide), hinf, magUnits_step (.inr (by decide)) le_rfl]
  exact hsum 2044

/-- Rounding overflows exactly from the midpoint above the largest finite value on; that value's pattern is odd, so the
midpoint itself overflows. -/
theorem roundMag_eq_infMag_iff (n : Nat) {d : Nat} (hd : 0 < d) :
    roundMag n d = infMag ↔ d * ((2 ^ 54 - 1) * 2 ^ 2044) ≤ n := by
  obtain ⟨hlo, hhi, hnear⟩ := nearMag_spec n hd
  have hle {a b : Nat} (h : a ≤ b) : magUnits a * d ≤ magUnits b * d :=
    Nat.mul_le_mul_right d (magUnits_strictMono.monotone h)
  have hmid : magUnits (infMag - 1) * d + magUnits infMag * d = 2 * (d * ((2 ^ 54 - 1) * 2 ^ 2044)) := by
    rw [← Nat.add_mul, magUnits_around_infMag, Nat.mul_assoc, Nat.mul_comm d]
  have hmax : magUnits (infMag - 1) * d ≤ magUnits infMag * d := hle (Nat.sub_le _ _)
  have hodd : infMag % 2 = 0 ∧ 0 < infMag := by decide
  rw [roundMag_eq_min, min_eq_right_iff]
  generalize d * ((2 ^ 54 - 1) * 2 ^ 2044) = mid at *
  generalize infMag = top at *
  generalize floorMag n d = m at *
  obtain hm | rfl | hm : m + 1 ≤ top - 1 ∨ m = top - 1 ∨ top ≤ m := by omega
  · have := hle hm
    split at hnear <;> omega
  · rw [show top - 1 + 1 = top by omega] at *
    split at hnear <;> omega
  · have := hle hm
    split at hnear <;> omega

/-- Settles O27: `roundMag` takes the nearer of the two neighbouring patterns, and overflows at the midpoint. -/
theorem roundingIsToNearestTiesToEven : Obligations.RoundingIsToNearestTiesToEven := by
  intro n d hd
  refine ⟨fun hfin a _ => ?_, roundMag_eq_infMag_iff n hd⟩
  have hround : roundMag n d = nearMag n d := by
    rw [roundMag_eq_min] at hfin ⊢
    omega
  have hunits : units (ofMag false (roundMag n d)) = magUnits (nearMag n d) := by
    rw [units_ofMag _ (roundMag_lt n d), hround]
  obtain ⟨hmin, htie⟩ := nearMag_nearest n hd (mag a)
  dsimp only
  rw [hunits, hround, units_eq_magUnits a]
  exact ⟨hmin, fun heq hne => htie heq (fun h => hne (by rw [h]))⟩

end Sys2Proof.F64
end

section
/-!
The binary64 operations class by class: finite, zero, infinite and NaN operands (R13).
-/
namespace Sys2Proof.F64

/-! ### Classes of patterns -/

theorem isFinite_iff (a : F64) : isFinite a = true ↔ mag a < infMag := decide_eq_true_iff
theorem isInf_iff (a : F64) : isInf a = true ↔ mag a = infMag := decide_eq_true_iff
theorem isNaN_iff (a : F64) : isNaN a = true ↔ infMag < mag a := decide_eq_true_iff

/-- The exponent and fraction fields make up the magnitude pattern. -/
theorem mag_eq_fields (a : F64) : mag a = a.toNat / 2 ^ 52 % 2 ^ 11 * 2 ^ 52 + a.toNat % 2 ^ 52 := by
  unfold mag
  omega

theorem units_eq_fields (a : F64) :
    units a = if a.toNat / 2 ^ 52 % 2 ^ 11 = 0 then a.toNat % 2 ^ 52
      else (2 ^ 52 + a.toNat % 2 ^ 52) * 2 ^ (a.toNat / 2 ^ 52 % 2 ^ 11 - 1) := by
  have hexp : mag a / 2 ^ 52 = a.toNat / 2 ^ 52 % 2 ^ 11 := by rw [mag_eq_fields]; omega
  have hfrac : mag a % 2 ^ 52 = a.toNat % 2 ^ 52 := by rw [mag_eq_fields]; omega
  rw [units_eq_magUnits, magUnits, hexp, hfrac]
  split
  · rw [mag_eq_fields]; omega
  · rfl

theorem isFinite_iff_fields (a : F64) : isFinite a = true ↔ a.toNat / 2 ^ 52 % 2 ^ 11 ≠ 2047 := by
  rw [isFinite_iff, mag_eq_fields, infMag]
  omega

theorem isInf_iff_fields (a : F64) :
    isInf a = true ↔ a.toNat / 2 ^ 52 % 2 ^ 11 = 2047 ∧ a.toNat % 2 ^ 52 = 0 := by
  rw [isInf_iff, mag_eq_fields, infMag]
  omega

theorem isNaN_iff_fields (a : F64) :
    isNaN a = true ↔ a.toNat / 2 ^ 52 % 2 ^ 11 = 2047 ∧ a.toNat % 2 ^ 52 ≠ 0 := by
  rw [isNaN_iff, mag_eq_fields, infMag]
  omega

theorem isNaN_of_isFinite {a : F64} (h : isFinite a = true) : isNaN a = false := by
  rw [isFinite_iff] at h
  simpa [isNaN] using h.le

theorem isInf_of_isFinite {a : F64} (h : isFinite a = true) : isInf a = false := by
  rw [isFinite_iff] at h
  simpa [isInf] using h.ne

theorem isNaN_of_isInf {a : F64} (h : isInf a = true) : isNaN a = false := by
  rw [isInf_iff] at h
  simp [isNaN, h]

theorem units_ne_zero_of_isInf {a : F64} (h : isInf a = true) : units a ≠ 0 := by
  rw [isInf_iff] at h
  rw [ne_eq, units_eq_zero_iff, h]
  decide

theorem isZero_eq (a : F64) : isZero a = decide (units a = 0) := by
  simp [isZero, units_eq_zero_iff]

theorem isZero_of_isInf {a : F64} (h : isInf a = true) : isZero a = false := by
  rw [isZero_eq, decide_eq_false (units_ne_zero_of_isInf h)]

@[simp] theorem isNaN_neg (a : F64) : isNaN (neg a) = isNaN a := by simp [isNaN]
@[simp] theorem isInf_neg (a : F64) : isInf (neg a) = isInf a := by simp [isInf]
@[simp] theorem isFinite_neg (a : F64) : isFinite (neg a) = isFinite a := by simp [isFinite]
@[simp] theorem units_neg (a : F64) : units (neg a) = units a := by simp [units_eq_magUnits]

@[simp] theorem signedUnits_neg (a : F64) : signedUnits (neg a) = -signedUnits a := by
  unfold signedUnits
  rw [sign_neg, units_neg]
  cases sign a <;> simp

@[simp] theorem isNaN_nan : isNaN nan = true := by decide

theorem zero_eq (s : Bool) : zero s = if s then 0x8000000000000000 else 0 := by cases s <;> rfl

theorem inf_eq (s : Bool) : inf s = if s then 0xFFF0000000000000 else 0x7FF0000000000000 := by cases s <;> rfl

/-- An infinity is the one of its sign. -/
theorem inf_sign_of_isInf {a : F64} (h : isInf a = true) : inf (sign a) = a := by
  rw [inf, ← (isInf_iff a).1 h, ofMag_sign_mag]

theorem toNat_round (s : Bool) (n d : Nat) : (round s n d).toNat = (if s then 2 ^ 63 else 0) + roundMag n d :=
  toNat_ofMag s (roundMag_lt n d)

/-! ### NaN operands -/

theorem add_of_isNaN {a b : F64} (h : isNaN a = true ∨ isNaN b = true) : add a b = nan := by
  simp [add, h]

protected theorem sub_eq_add_neg (a b : F64) : sub a b = add a (neg b) := by
  unfold sub
  split
  next h => rw [add_of_isNaN (by simpa using h)]
  next => rfl

theorem sub_of_isNaN {a b : F64} (h : isNaN a = true ∨ isNaN b = true) : sub a b = nan := by
  rw [F64.sub_eq_add_neg, add_of_isNaN (by simpa using h)]

theorem mul_of_isNaN {a b : F64} (h : isNaN a = true ∨ isNaN b = true) : mul a b = nan := by
  simp [mul, h]

theorem div_of_isNaN {a b : F64} (h : isNaN a = true ∨ isNaN b = true) : div a b = nan := by
  simp [div, h]

theorem lt_of_isNaN {a b : F64} (h : isNaN a = true ∨ isNaN b = true) : lt a b = false := by
  rcases h with h | h <;> simp [lt, h]

theorem le_of_isNaN {a b : F64} (h : isNaN a = true ∨ isNaN b = true) : le a b = false := by
  rcases h with h | h <;> simp [le, h]

/-! ### Finite operands -/

/-- Two values of one sign with an exact zero sum are both zero, so the signs alone tell which zero the sum is. -/
theorem addFinite_eq (a b : F64) :
    addFinite a b =
      if signedUnits a + signedUnits b = 0 then (if sign a && sign b then 0x8000000000000000 else 0)
      else round (decide (signedUnits a + signedUnits b < 0)) (signedUnits a + signedUnits b).natAbs 1 := by
  unfold addFinite
  dsimp only
  split
  next hsum =>
    have hzero : (sign a && sign b && isZero a && isZero b) = (sign a && sign b) := by
      cases ha : sign a <;> cases hb : sign b <;> simp only [Bool.false_and, Bool.and_false, Bool.true_and]
      simp only [signedUnits, ha, hb, if_true] at hsum
      rw [isZero_eq, isZero_eq, decide_eq_true (show units a = 0 by omega), decide_eq_true (show units b = 0 by omega)]
      rfl
    rw [hzero, zero_eq]
  next => rfl

theorem add_of_isFinite {a b : F64} (ha : isFinite a = true) (hb : isFinite b = true) :
    add a b =
      if signedUnits a + signedUnits b = 0 then (if sign a && sign b then 0x8000000000000000 else 0)
      else round (decide (signedUnits a + signedUnits b < 0)) (signedUnits a + signedUnits b).natAbs 1 := by
  rw [← addFinite_eq]
  simp [add, isNaN_of_isFinite, isInf_of_isFinite, ha, hb]

theorem sub_of_isFinite {a b : F64} (ha : isFinite a = true) (hb : isFinite b = true) :
    sub a b =
      if signedUnits a - signedUnits b = 0 then (if sign a && !sign b then 0x8000000000000000 else 0)
      else round (decide (signedUnits a - signedUnits b < 0)) (signedUnits a - signedUnits b).natAbs 1 := by
  rw [F64.sub_eq_add_neg, add_of_isFinite ha (by simpa using hb), sign_neg, signedUnits_neg,
    ← Int.sub_eq_add_neg]

theorem mul_of_isFinite {a b : F64} (ha : isFinite a = true) (hb : isFinite b = true) :
    mul a b = round (sign a != sign b) (units a * units b) unitScale := by
  simp [mul, isNaN_of_isFinite, isInf_of_isFinite, ha, hb]

theorem div_of_isFinite {a b : F64} (ha : isFinite a = true) (hb : isFinite b = true) :
    div a b =
      if units b = 0 then (if units a = 0 then nan else inf (sign a != sign b))
      else round (sign a != sign b) (units a * unitScale) (units b) := by
  simp [div, isNaN_of_isFinite, isInf_of_isFinite, ha, hb, isZero_eq]

/-! ### Infinite operands -/

theorem add_of_isInf_left {a b : F64} (ha : isInf a = true) (hb : isNaN b = false)
    (h : isInf b = true → sign a = sign b) : add a b = a := by
  have hopp : (isInf b && sign a != sign b) = false := by
    cases hi : isInf b with
    | false => rfl
    | true => simp [h hi]
  simp [add, isNaN_of_isInf ha, ha, hb, hopp, inf_sign_of_isInf ha]

theorem add_of_isInf_right {a b : F64} (ha : isFinite a = true) (hb : isInf b = true) : add a b = b := by
  simp [add, isNaN_of_isFinite ha, isNaN_of_isInf hb, isInf_of_isFinite ha, hb, inf_sign_of_isInf hb]

theorem add_of_isInf_opposite {a b : F64} (ha : isInf a = true) (hb : isInf b = true) (h : sign a ≠ sign b) :
    add a b = nan := by
  simp [add, isNaN_of_isInf, ha, hb, h]

theorem sub_of_isInf_left {a b : F64} (ha : isInf a = true) (hb : isNaN b = false)
    (h : isInf b = true → sign a ≠ sign b) : sub a b = a := by
  rw [F64.sub_eq_add_neg, add_of_isInf_left ha (by simpa using hb)]
  intro hi
  rw [sign_neg]
  exact Bool.eq_not_of_ne (h (by simpa using hi))

theorem sub_of_isInf_right {a b : F64} (ha : isFinite a = true) (hb : isInf b = true) : sub a b = neg b := by
  rw [F64.sub_eq_add_neg, add_of_isInf_right ha (by simpa using hb)]

theorem sub_of_isInf_same {a b : F64} (ha : isInf a = true) (hb : isInf b = true) (h : sign a = sign b) :
    sub a b = nan := by
  rw [F64.sub_eq_add_neg, add_of_isInf_opposite ha (by simpa using hb) (by simp [h])]

protected theorem mul_comm (a b : F64) : mul a b = mul b a := by
  have hs : (sign a != sign b) = (sign b != sign a) := by cases sign a <;> cases sign b <;> rfl
  simp only [mul, hs, Bool.or_comm (isNaN a), Bool.or_comm (isInf a), Bool.or_comm (isZero a), Nat.mul_comm (units a)]

theorem mul_of_isInf {a b : F64} (ha : isInf a = true) (hb : isNaN b = false) :
    mul a b = if units b = 0 then nan else inf (sign a != sign b) := by
  simp [mul, isNaN_of_isInf ha, ha, hb, isZero_of_isInf ha, isZero_eq b]

theorem div_of_isInf_left {a b : F64} (ha : isInf a = true) (hb : isNaN b = false) :
    div a b = if isInf b then nan else inf (sign a != sign b) := by
  simp [div, isNaN_of_isInf ha, ha, hb]

theorem div_of_isInf_right {a b : F64} (ha : isFinite a = true) (hb : isInf b = true) :
    div a b = zero (sign a != sign b) := by
  simp [div, isNaN_of_isFinite ha, isNaN_of_isInf hb, isInf_of_isFinite ha, hb]

/-! ### Order -/

theorem lt_iff_key {a b : F64} (ha : isNaN a = false) (hb : isNaN b = false) : lt a b = true ↔ key a < key b := by
  simp [lt, ha, hb]

theorem le_iff_key {a b : F64} (ha : isNaN a = false) (hb : isNaN b = false) : le a b = true ↔ key a ≤ key b := by
  simp [le, ha, hb]

/-- The order of the keys is the order of the exact values; the two zeros share a place in both. -/
theorem key_lt_iff_signedUnits (a b : F64) : key a < key b ↔ signedUnits a < signedUnits b := by
  have hab : mag a < mag b ↔ units a < units b := magUnits_strictMono.lt_iff_lt.symm
  have hba : mag b < mag a ↔ units b < units a := magUnits_strictMono.lt_iff_lt.symm
  have ha := units_eq_zero_iff a
  have hb := units_eq_zero_iff b
  unfold key signedUnits
  cases sign a <;> cases sign b <;> simp only [if_true, if_false, Bool.false_eq_true] <;> omega

theorem key_le_iff_signedUnits (a b : F64) : key a ≤ key b ↔ signedUnits a ≤ signedUnits b := by
  rw [← Int.not_lt, key_lt_iff_signedUnits, Int.not_lt]

theorem lt_iff_signedUnits {a b : F64} (ha : isFinite a = true) (hb : isFinite b = true) :
    lt a b = true ↔ signedUnits a < signedUnits b :=
  (lt_iff_key (isNaN_of_isFinite ha) (isNaN_of_isFinite hb)).trans (key_lt_iff_signedUnits a b)

theorem le_iff_signedUnits {a b : F64} (ha : isFinite a = true) (hb : isFinite b = true) :
    le a b = true ↔ signedUnits a ≤ signedUnits b :=
  (le_iff_key (isNaN_of_isFinite ha) (isNaN_of_isFinite hb)).trans (key_le_iff_signedUnits a b)

/-- Only an infinity itself has its place in the order. -/
theorem key_eq_iff_of_isInf {a b : F64} (ha : isInf a = true) : key b = key a ↔ b = a := by
  refine ⟨fun h => ?_, fun h => by rw [h]⟩
  have hmag := (isInf_iff a).1 ha
  have hpos : 0 < infMag := by decide
  unfold key at h
  cases hsa : sign a <;> cases hsb : sign b <;>
    simp only [hsa, hsb, if_true, if_false, Bool.false_eq_true] at h
  · exact eq_of_sign_mag (hsb.trans hsa.symm) (by omega)
  · omega
  · omega
  · exact eq_of_sign_mag (hsb.trans hsa.symm) (by omega)

/-- No number lies beyond the infinities. -/
theorem key_bound_of_isInf {a b : F64} (ha : isInf a = true) (hb : isNaN b = false) :
    if sign a then key a ≤ key b else key b ≤ key a := by
  have hmag := (isInf_iff a).1 ha
  have hle : mag b ≤ infMag := by simpa [isNaN] using hb
  unfold key
  cases sign a <;> cases sign b <;> simp only [if_true, if_false, Bool.false_eq_true] <;> omega

theorem le_eq_not_lt {a b : F64} (ha : isNaN a = false) (hb : isNaN b = false) : le a b = !lt b a := by
  rw [Bool.eq_iff_iff, Bool.not_eq_true', Bool.eq_false_iff, ne_eq, le_iff_key ha hb, lt_iff_key hb ha, Int.not_lt]

section
variable {a b : F64} (ha : isInf a = true) (hb : isNaN b = false)
include ha hb

theorem lt_of_isInf_left : lt a b = (sign a && b != a) := by
  have heq := key_eq_iff_of_isInf (b := b) ha
  have hbound := key_bound_of_isInf ha hb
  rw [Bool.eq_iff_iff, lt_iff_key (isNaN_of_isInf ha) hb, Bool.and_eq_true, bne_iff_ne, ne_eq, ← heq]
  cases hs : sign a <;> simp [hs] at hbound ⊢ <;> omega

theorem lt_of_isInf_right : lt b a = (!sign a && b != a) := by
  have heq := key_eq_iff_of_isInf (b := b) ha
  have hbound := key_bound_of_isInf ha hb
  rw [Bool.eq_iff_iff, lt_iff_key hb (isNaN_of_isInf ha), Bool.and_eq_true, bne_iff_ne, ne_eq, ← heq]
  cases hs : sign a <;> simp [hs] at hbound ⊢ <;> omega

theorem le_of_isInf_left : le a b = (sign a || b == a) := by
  rw [le_eq_not_lt (isNaN_of_isInf ha) hb, lt_of_isInf_right ha hb]
  simp [bne]

theorem le_of_isInf_right : le b a = (!sign a || b == a) := by
  rw [le_eq_not_lt hb (isNaN_of_isInf ha), lt_of_isInf_left ha hb]
  simp [bne]

end

/-- Settles O28, one class of operands at a time. -/
theorem floatOperationsRoundTheExactResult : Obligations.FloatOperationsRoundTheExactResult := by
  refine ⟨fun a => ?pattern, toNat_round, fun n => rfl, fun a b ha hb => ?finite, fun a b ha hb => ?infWithFinite,
    fun a b ha hb => ?bothInf, fun a b ha hb => ?orderOfInf, fun a b h => ?nan, inf_eq, fun a b => rfl⟩
  case pattern =>
    exact ⟨units_eq_fields a, rfl, isNaN_iff_fields a, isInf_iff_fields a, isFinite_iff_fields a, toNat_neg a⟩
  case finite =>
    have hdiv := div_of_isFinite ha hb
    refine ⟨add_of_isFinite ha hb, sub_of_isFinite ha hb, mul_of_isFinite ha hb, fun hb0 => ?_, fun hb0 ha0 => ?_,
      fun hb0 ha0 => ?_, lt_iff_signedUnits ha hb, le_iff_signedUnits ha hb⟩
    · exact hdiv.trans (if_neg hb0)
    · exact hdiv.trans ((if_pos hb0).trans (if_neg ha0))
    · rw [hdiv, if_pos hb0, if_pos ha0, isNaN_nan]
  case infWithFinite =>
    have hnan := isNaN_of_isFinite hb
    have hmul := mul_of_isInf ha hnan
    refine ⟨add_of_isInf_left ha hnan (by simp [isInf_of_isFinite hb]), add_of_isInf_right hb ha,
      sub_of_isInf_left ha hnan (by simp [isInf_of_isFinite hb]), sub_of_isInf_right hb ha, ?_, ?_, fun hb0 => ?_,
      fun hb0 => ?_⟩
    · rw [div_of_isInf_left ha hnan, isInf_of_isFinite hb]; rfl
    · rw [div_of_isInf_right hb ha, zero_eq, bne_comm]; rfl
    · rw [F64.mul_comm b a, hmul, if_neg hb0]; exact ⟨rfl, rfl⟩
    · rw [F64.mul_comm b a, hmul, if_pos hb0]; exact ⟨isNaN_nan, isNaN_nan⟩
  case bothInf =>
    have hnan := isNaN_of_isInf hb
    refine ⟨(mul_of_isInf ha hnan).trans (if_neg (units_ne_zero_of_isInf hb)), ?_, fun hs => ?_, fun hs => ?_⟩
    · rw [div_of_isInf_left ha hnan, if_pos hb, isNaN_nan]
    · have hsign : sign a = sign b := bne_eq_false_iff_eq.1 hs
      rw [add_of_isInf_left ha hnan fun _ => hsign, sub_of_isInf_same ha hb hsign]
      exact ⟨rfl, isNaN_nan⟩
    · have hsign : sign a ≠ sign b := bne_iff_ne.1 hs
      rw [sub_of_isInf_left ha hnan fun _ => hsign, add_of_isInf_opposite ha hb hsign]
      exact ⟨rfl, isNaN_nan⟩
  case orderOfInf =>
    exact ⟨lt_of_isInf_left ha hb, lt_of_isInf_right ha hb, le_of_isInf_left ha hb, le_of_isInf_right ha hb⟩
  case nan =>
    rw [add_of_isNaN h, sub_of_isNaN h, mul_of_isNaN h, div_of_isNaN h]
    exact ⟨isNaN_nan, isNaN_nan, isNaN_nan, isNaN_nan, lt_of_isNaN h, le_of_isNaN h⟩

end Sys2Proof.F64
end

section
/-!
What the invariant of Safety.lean rests on: the layers of the state it speaks of, and when it carries over from one state
to another.
-/
namespace Sys2Proof.Machine

/-! ### The layers of a state -/

/-- The part of FrameRing the writer owns (R36, R42, R44), with the parameters. -/
def State.frames (s : State) : Params × ParserConfig × Word64 × Memory 16 := (s.params, s.active, s.wcount, s.ring)

/-- All storage the invariant speaks of. -/
def State.store (s : State) : (Params × ParserConfig × Word64 × Memory 16) × List Port := (s.frames, s.ports)

/-- Everything the invariant speaks of: the storage and the session (R34, R39, R41). -/
def State.core (s : State) :
    ((Params × ParserConfig × Word64 × Memory 16) × List Port) × Bool × Bool × Engine :=
  (s.store, s.stopPending, s.grace, s.engine)

theorem State.frames_eq_iff {s t : State} :
    t.frames = s.frames ↔ t.params = s.params ∧ t.active = s.active ∧ t.wcount = s.wcount ∧ t.ring = s.ring := by
  simp [State.frames]

theorem State.store_eq_iff {s t : State} : t.store = s.store ↔ t.frames = s.frames ∧ t.ports = s.ports := by
  simp [State.store]

theorem State.core_eq_iff {s t : State} :
    t.core = s.core ↔
      t.store = s.store ∧ t.stopPending = s.stopPending ∧ t.grace = s.grace ∧ t.engine = s.engine := by
  simp [State.core]

theorem State.running_iff {s : State} : s.running = true ↔ s.engine ≠ .stopped := by
  unfold State.running
  cases s.engine <;> simp

theorem State.receiving_iff {s : State} : s.receiving = true ↔ s.engine = .receive := by
  unfold State.receiving
  cases s.engine <;> simp

/-! ### What goodness depends on -/

theorem Engine.good_congr {s t : State} (h : t.frames = s.frames) (e : Engine) : e.good t ↔ e.good s := by
  obtain ⟨hp, ha, hw, hr⟩ := State.frames_eq_iff.1 h
  cases e <;> simp only [Engine.good, State.ringAddr, hp, ha, hw, hr]

/-- A scan depends on the ring's geometry and on the port's snapshot only. -/
theorem Scan.good_congr {s t : State} {q q' : Port} {c c' : Command} (hp : t.params = s.params)
    (ha : t.active = s.active) (hq : q'.snap = q.snap) (h0 : c'.a0 = c.a0) (h3 : c'.a3 = c.a3) (sc : Scan) :
    sc.good t q' c' ↔ sc.good s q c := by
  simp only [Scan.good, hp, ha, hq, h0, h3]

theorem Command.good_congr {s t : State} {q q' : Port} (hp : t.params = s.params) (ha : t.active = s.active)
    (hq : q'.snap = q.snap) (c : Command) : c.good t q' ↔ c.good s q := by
  unfold Command.good
  rw [hp]
  cases c.work with
  | accepted => rfl
  | scanning sc => simp only [Scan.good_congr hp ha hq rfl rfl]

/-- A good port stays good while W grows. -/
theorem Port.Good.mono {s t : State} {q : Port} (h : q.Good s) (hp : t.params = s.params) (ha : t.active = s.active)
    (hw : s.wcount.toNat ≤ t.wcount.toNat) : q.Good t where
  status := h.status
  snap_le := h.snap_le.trans hw
  series := hp ▸ h.series
  command c hc := (Command.good_congr hp ha rfl c).2 (h.command c hc)
  past_written := by
    simpa only [State.ringAddr, hp, ha] using h.past_written

/-! ### The invariant of a related state -/

/-- A state with the same storage satisfies the invariant as soon as its session is good. -/
theorem State.Inv.of_store {s t : State} (hs : s.Inv) (h : t.store = s.store)
    (hstop : t.stopPending = true → t.running = true)
    (hgrace : t.grace = true → t.stopPending = true ∧ t.receiving = true) (hgood : t.engine.good t) : t.Inv := by
  obtain ⟨hf, hq⟩ := State.store_eq_iff.1 h
  obtain ⟨hp, ha, hw, hr⟩ := State.frames_eq_iff.1 hf
  exact
    { params_valid := hp ▸ hs.params_valid
      active_valid := by rw [hp, ha]; exact hs.active_valid
      port_count := by rw [hp, hq]; exact hs.port_count
      stop_running := hstop
      grace_waiting := hgrace
      engine_good := hgood
      ring_within := by rw [hp, ha, hr]; exact hs.ring_within
      retained_written := by simpa only [State.ringAddr, hp, ha, hw, hr] using hs.retained_written
      ports_good := fun q hmem => (hs.ports_good q (hq ▸ hmem)).mono hp ha (by rw [hw]) }

/-- The invariant speaks of the core of the state only. -/
theorem State.Inv.of_core {s t : State} (hs : s.Inv) (h : t.core = s.core) : t.Inv := by
  obtain ⟨hst, hstop, hgrace, he⟩ := State.core_eq_iff.1 h
  have hrun : t.running = s.running := by rw [State.running, State.running, he]
  have hrec : t.receiving = s.receiving := by rw [State.receiving, State.receiving, he]
  refine hs.of_store hst ?_ ?_ ?_
  · rw [hstop, hrun]
    exact hs.stop_running
  · rw [hgrace, hstop, hrec]
    exact hs.grace_waiting
  · rw [he]
    exact (Engine.good_congr (State.store_eq_iff.1 hst).1 _).2 hs.engine_good

/-- GRACE is 1 only while the engine waits (R40). -/
theorem State.Inv.grace_of_not_receiving {s : State} (hs : s.Inv) (hrec : s.receiving = false) : s.grace = false := by
  by_contra hg
  obtain ⟨-, hr⟩ := hs.grace_waiting (by simpa using hg)
  rw [hrec] at hr
  cases hr

/-- The engine goes from a state other than RECEIVE to another state of its session. -/
theorem State.Inv.of_packet {s t : State} (hs : s.Inv) (hrec : s.receiving = false) (h : t.store = s.store)
    (hgrace : t.grace = s.grace) (hrun : t.running = true) (hgood : t.engine.good t) : t.Inv := by
  refine hs.of_store h (fun _ => hrun) (fun ht => ?_) hgood
  rw [hgrace, hs.grace_of_not_receiving hrec] at ht
  cases ht

/-- A port replaced by a good one. -/
theorem State.Inv.setPort {s : State} (hs : s.Inv) (p : Nat) {q : Port} (hq : q.Good s) : (s.setPort p q).Inv where
  params_valid := hs.params_valid
  active_valid := hs.active_valid
  port_count := by simpa using hs.port_count
  stop_running := hs.stop_running
  grace_waiting := hs.grace_waiting
  engine_good := (Engine.good_congr (s := s) rfl _).2 hs.engine_good
  ring_within := hs.ring_within
  retained_written := hs.retained_written
  ports_good r hr := by
    rcases List.mem_or_eq_of_mem_set hr with hr | rfl
    · exact (hs.ports_good r hr).mono rfl rfl le_rfl
    · exact hq.mono rfl rfl le_rfl

theorem State.Inv.good_of_port? {s : State} (hs : s.Inv) {p : Nat} {q : Port} (h : s.port? p = some q) : q.Good s :=
  hs.ports_good q (List.mem_of_getElem? h)

end Sys2Proof.Machine
end

section
/-!
The port commands keep their port good (R54, R59, R60, R245), whatever state of the port and of the ring they find.
-/
namespace Sys2Proof.Machine

/-! ### Bounded storage -/

theorem Memory.within_write {n : Nat} {m : Memory n} {bound a : Nat} (hm : m.within bound) (ha : a < bound)
    (v : BitVec n) : Memory.within (m.write a v) bound := by
  obtain ⟨hwf, hb⟩ := hm
  refine ⟨Memory.wf_write hwf a v, fun e he => ?_⟩
  rcases Memory.mem_write he with rfl | he
  · exact ha
  · exact hb e he

theorem Memory.within_writeFrom {n : Nat} {m : Memory n} {bound : Nat} (hm : m.within bound) (k : Nat)
    (vs : List (BitVec n)) (h : k + vs.length ≤ bound ∨ vs = []) : Memory.within (m.writeFrom k vs) bound := by
  induction vs generalizing m k with
  | nil => exact hm
  | cons v vs ih =>
    have hk : k + 1 + vs.length ≤ bound := by
      rcases h with h | h
      · rw [List.length_cons] at h
        omega
      · cases h
    exact ih (Memory.within_write hm (by omega) v) (k + 1) (.inl hk)

/-- A RingRead only forgets values (R93). -/
theorem keepNewer_subset (a n : Nat) (es : List (Nat × Option Word16)) : keepNewer a n es ⊆ es := by
  induction es generalizing n with
  | nil => simp [keepNewer]
  | cons e es ih =>
    unfold keepNewer
    split
    · cases n with
      | zero => exact List.subset_cons_of_subset e (ih 0)
      | succ n => exact List.cons_subset_cons e (ih n)
    · exact List.cons_subset_cons e (ih n)

/-! ### Good updates of a port -/

/-- The opcode and array field of a command that PCMD accepts under these parameters (R115, R122, R246). -/
def acceptable (P : Params) (op : BitVec 8) (arr : BitVec 2) : Prop :=
  (op = 0x01 ∨ op = 0x02 ∨ op = 0x03) ∧ arr = 0 ∨ op = 0x10 ∨ op = 0x11 ∨ op = 0x12 ∧ P.hpfPresent = true

theorem Command.good_iff {s : State} {q : Port} {c : Command} :
    c.good s q ↔
      acceptable s.params c.op c.arr ∧ ∀ sc, c.work = .scanning sc → c.op = 0x03 ∧ sc.good s q c := by
  unfold Command.good acceptable
  cases c.work <;> simp

/-- The four series arrays of a port (R60). -/
def Port.arrays (q : Port) : Memory 64 × Memory 64 × Memory 64 × Memory 64 := (q.x, q.ymin, q.ymax, q.mean)

theorem Port.series_of_arrays {q q' : Port} (h : q'.arrays = q.arrays) (arr : SeriesArr) :
    q'.series arr = q.series arr := by
  simp only [Port.arrays, Prod.mk.injEq] at h
  obtain ⟨hx, hymin, hymax, hmean⟩ := h
  cases arr <;> assumption

theorem Port.Good.series_of {s : State} {q q' : Port} (hq : q.Good s) (h : q'.arrays = q.arrays) (arr : SeriesArr) :
    (q'.series arr).within s.params.maxBins :=
  Port.series_of_arrays h arr ▸ hq.series arr

/-- What a port update must respect when it leaves the snapshot alone and remembers no more than before. -/
theorem Port.Good.update {s : State} {q q' : Port} (hq : q.Good s) (hsnap : q'.snap = q.snap) (hpast : q'.past ⊆ q.past)
    (hstatus : ¬(q'.done = true ∧ q'.err = true) ∧ (q'.busy = true → q'.done = false ∧ q'.err = false))
    (hseries : ∀ arr, (q'.series arr).within s.params.maxBins) (hcmd : ∀ c, q'.cmd = some c → c.good s q') :
    q'.Good s where
  status := hstatus
  snap_le := by rw [hsnap]; exact hq.snap_le
  series := hseries
  command := hcmd
  past_written i ch hi hch e he := hq.past_written i ch (hsnap ▸ hi) hch e (hpast he)

/-- The end of a command: the port becomes idle with one of DONE and ERR. -/
theorem Port.Good.finish {s : State} {q q' : Port} (hq : q.Good s) (hcmd : q'.cmd = none) (herr : q'.err = !q'.done)
    (hsnap : q'.snap = q.snap) (hpast : q'.past ⊆ q.past) (hseries : ∀ arr, (q'.series arr).within s.params.maxBins) :
    q'.Good s := by
  refine hq.update hsnap hpast ⟨?_, ?_⟩ hseries (fun c hc => ?_)
  · rw [herr]
    cases q'.done <;> simp
  · simp [Port.busy, hcmd]
  · rw [hcmd] at hc
    cases hc

theorem Port.Good.fail {s : State} {q : Port} (hq : q.Good s) (code : ResultCode) : (q.fail code).Good s :=
  hq.finish rfl rfl rfl (List.Subset.refl _) (hq.series_of rfl)

theorem Port.Good.complete {s : State} {q : Port} (hq : q.Good s) : q.complete.Good s :=
  hq.finish rfl rfl rfl (List.Subset.refl _) (hq.series_of rfl)

theorem Port.Good.accept {s : State} {q : Port} (hq : q.Good s) {op : BitVec 8} {arr : BitVec 2}
    (hop : acceptable s.params op arr) : (q.accept op arr).Good s := by
  refine hq.update rfl (List.Subset.refl _) (by simp) (hq.series_of rfl) (fun c hc => ?_)
  obtain rfl := Option.some.inj hc
  exact Command.good_iff.2 ⟨hop, nofun⟩

/-- A port whose command, status, snapshot and record are untouched is good with every array bounded. -/
theorem Port.Good.keep {s : State} {q q' : Port} (hq : q.Good s) (hdone : q'.done = q.done) (herr : q'.err = q.err)
    (hcmd : q'.cmd = q.cmd) (hsnap : q'.snap = q.snap) (hpast : q'.past = q.past)
    (hseries : ∀ arr, (q'.series arr).within s.params.maxBins) : q'.Good s := by
  refine hq.update hsnap (by rw [hpast]; exact List.Subset.refl _) ?_ hseries (fun c hc => ?_)
  · simpa only [Port.busy, hdone, herr, hcmd] using hq.status
  · exact (Command.good_congr rfl rfl hsnap c).2 (hq.command c (hcmd ▸ hc))

theorem Port.Good.noteOverrun {s : State} {q : Port} (hq : q.Good s) : q.noteOverrun.Good s :=
  hq.keep rfl rfl rfl rfl rfl (hq.series_of rfl)

theorem Port.within_setSeries {q : Port} {bound : Nat} (hq : ∀ arr, (q.series arr).within bound) (arr : SeriesArr)
    {m : Memory 64} (hm : m.within bound) (arr' : SeriesArr) : ((q.setSeries arr m).series arr').within bound := by
  by_cases h : arr' = arr
  · subst h
    simpa using hm
  · rw [Port.series_setSeries_other q arr arr' m h]
    exact hq arr'

theorem Port.Good.setSeries {s : State} {q : Port} (hq : q.Good s) (arr : SeriesArr) {m : Memory 64}
    (hm : m.within s.params.maxBins) : (q.setSeries arr m).Good s :=
  hq.keep (by simp) (by simp) (by simp) (by simp) (by simp) (Port.within_setSeries hq.series arr hm)

/-- A filter's result, stored within MAX_BINS, and the end of the filter (R280, R283, R286). -/
theorem Port.Good.storeSeries_complete {s : State} {q : Port} (hq : q.Good s) (arr : SeriesArr) (k : Nat)
    (vs : List F64) (h : k + vs.length ≤ s.params.maxBins ∨ vs = []) : (q.storeSeries arr k vs).complete.Good s :=
  (hq.setSeries arr (Memory.within_writeFrom (hq.series arr) k vs h)).complete

theorem Port.Good.setArg {s : State} {q : Port} (hq : q.Good s) (k : ArgReg) (v : Word64) : (q.setArg k v).Good s := by
  cases k <;> exact hq.keep rfl rfl rfl rfl rfl (hq.series_of rfl)

/-! ### Port updates -/

/-- `t` is `s` with port `p`, which is `q`, replaced by a port that is good where `q` is; nothing else that the
invariant speaks of has changed. -/
def State.PortUpdate (s : State) (p : Nat) (q : Port) (t : State) : Prop :=
  ∃ q', t.core = (s.setPort p q').core ∧ (q.Good s → q'.Good s)

theorem State.PortUpdate.frames_eq {s t : State} {p : Nat} {q : Port} (h : s.PortUpdate p q t) : t.frames = s.frames := by
  obtain ⟨q', h, -⟩ := h
  obtain ⟨hst, -⟩ := State.core_eq_iff.1 h
  exact (State.store_eq_iff.1 hst).1

theorem State.PortUpdate.inv {s t : State} {p : Nat} {q : Port} (hs : s.Inv) (hq : s.port? p = some q)
    (h : s.PortUpdate p q t) : t.Inv := by
  obtain ⟨q', h, hgood⟩ := h
  exact (hs.setPort p (hgood (hs.good_of_port? hq))).of_core h

/-- One step of a port command is a bus error or an update of its port, if its body is one. -/
theorem portCommand_update {p : Nat} {op : BitVec 8} {arr : BitVec 2} {body : State → Port → Command → State}
    {s t : State} (hok : ∀ q, s.port? p = some q → q.cmd = none → acceptable s.params op arr)
    (hbody : ∀ q c, q.cmd = some c → c.op = op → s.PortUpdate p q (body s q c))
    (h : portCommand p op arr body s = .next t) :
    t = s.busError ∨ ∃ q, s.port? p = some q ∧ s.PortUpdate p q t := by
  rcases portCommand_cases h with ⟨-, ht⟩ | ⟨q, hp, hc, rfl⟩ | ⟨q, c, hp, hc, hop, -, rfl⟩ | ⟨q, c, hp, -, -, rfl⟩
  · exact .inl ht
  · exact .inr ⟨q, hp, _, rfl, fun hq => hq.accept (hok q hp hc)⟩
  · exact .inr ⟨q, hp, hbody q c hc hop⟩
  · exact .inr ⟨q, hp, _, rfl, Port.Good.noteOverrun⟩

/-! ### SNAPSHOT and GET_SAMPLE -/

theorem snapshotStep_update (p : Nat) (s : State) (q : Port) (c : Command) :
    s.PortUpdate p q (snapshotStep p s q c) := by
  refine ⟨_, rfl, fun hq => ?_⟩
  exact
    { status := by simp [Port.busy]
      snap_le := le_rfl
      series := hq.series_of rfl
      command := fun c hc => nomatch hc
      past_written := fun i ch _ _ e he => nomatch he }

theorem getSampleStep_update (p : Nat) (s : State) (q : Port) (c : Command) :
    s.PortUpdate p q (getSampleStep p s q c) := by
  unfold getSampleStep
  dsimp only
  split_ifs
  · exact ⟨_, rfl, fun hq => hq.fail _⟩
  · exact ⟨_, rfl, fun hq => hq.fail _⟩
  · exact ⟨_, rfl, fun hq => hq.finish rfl rfl rfl (keepNewer_subset _ _ _) (hq.series_of rfl)⟩

/-! ### Filters -/

theorem seriesPart_length (s : State) (p : Nat) (q : Port) (arr : SeriesArr) (n : Nat) :
    (s.seriesPart p q arr n).length = n := by
  simp [State.seriesPart]

theorem settleAll_length (k : Nat) (vs : List F64) : (settleAll k vs).length = vs.length := by
  induction vs generalizing k with
  | nil => rfl
  | cons v vs ih => simp [settleAll, ih]

theorem emaLoop_length (alpha prev : F64) (vs : List F64) : (emaLoop alpha prev vs).length = vs.length := by
  induction vs generalizing prev with
  | nil => rfl
  | cons v vs ih => simp [emaLoop, ih]

theorem emaOutputs_length (alpha : F64) (vs : List F64) : (emaOutputs alpha vs).length = vs.length - 1 := by
  cases vs with
  | nil => rfl
  | cons v vs => simp [emaOutputs, emaLoop_length]

theorem smaOutputs_length (vs : List F64) (half : Nat) : (smaOutputs vs half).length = vs.length := by
  simp [smaOutputs]

theorem hpfLoop_length (alpha y prev : F64) (vs : List F64) : (hpfLoop alpha y prev vs).length = vs.length := by
  induction vs generalizing y prev with
  | nil => rfl
  | cons v vs ih => simp [hpfLoop, ih]

theorem emaStep_update (p : Nat) (arr : SeriesArr) (s : State) (q : Port) (c : Command) :
    s.PortUpdate p q (emaStep p arr s q c) := by
  unfold emaStep
  dsimp only
  split_ifs with hn
  · exact ⟨_, rfl, fun hq => hq.fail _⟩
  · refine ⟨_, rfl, fun hq => hq.storeSeries_complete _ _ _ ?_⟩
    rw [← List.length_eq_zero_iff, settleAll_length, emaOutputs_length, seriesPart_length]
    omega

theorem smaStep_update (p : Nat) (arr : SeriesArr) (s : State) (q : Port) (c : Command) :
    s.PortUpdate p q (smaStep p arr s q c) := by
  unfold smaStep
  dsimp only
  split_ifs with hn
  · exact ⟨_, rfl, fun hq => hq.fail _⟩
  · refine ⟨_, rfl, fun hq => hq.storeSeries_complete _ _ _ (.inl ?_)⟩
    rw [seriesPart_length]
    omega
  · refine ⟨_, rfl, fun hq => hq.storeSeries_complete _ _ _ (.inl ?_)⟩
    rw [settleAll_length, smaOutputs_length, seriesPart_length]
    omega

theorem hpfStep_update (p : Nat) (arr : SeriesArr) (s : State) (q : Port) (c : Command) :
    s.PortUpdate p q (hpfStep p arr s q c) := by
  unfold hpfStep
  dsimp only
  split_ifs with hn
  · exact ⟨_, rfl, fun hq => hq.fail _⟩
  · exact ⟨_, rfl, fun hq => hq.complete⟩
  · cases hv : s.seriesPart p q arr (operandU64 c.a2) with
    | nil => exact ⟨_, rfl, fun hq => hq.complete⟩
    | cons v vs =>
      refine ⟨_, rfl, fun hq => hq.storeSeries_complete _ _ _ (.inl ?_)⟩
      have hlen := seriesPart_length s p q arr (operandU64 c.a2)
      rw [hv, List.length_cons] at hlen
      rw [List.length_cons, settleAll_length, hpfLoop_length]
      omega

/-! ### ENVELOPE -/

theorem binLo_lt_binHi (start span bins b : Nat) : binLo start span bins b < binHi start span bins b := by
  have hle : b * span / bins ≤ (b + 1) * span / bins :=
    Nat.div_le_div_right (Nat.mul_le_mul_right span b.le_succ)
  unfold binLo binHi
  dsimp only
  split_ifs <;> omega

theorem envelopeSpan_le (avail : Nat) (ws fps : F64) : envelopeSpan avail ws fps ≤ avail := by
  unfold envelopeSpan
  dsimp only
  split_ifs
  · exact le_rfl
  · exact min_le_right _ _

/-- Operands that pass the checks name a channel of the frame and 1 to MAX_BINS bins (R261). -/
theorem bounds_of_envelopeError_none {P : Params} {spf : Nat} {c : Command} (h : envelopeError P spf c = none) :
    operandU64 c.a0 < spf ∧ operandU64 c.a3 ≤ P.maxBins := by
  unfold envelopeError at h
  dsimp only at h
  split_ifs at h with h0 h3
  omega

theorem Scan.good_nextFrame {s : State} {q : Port} {c : Command} {sc : Scan} (h : sc.good s q c) (mm : Nat × Nat)
    (sum : Nat)
    (hf : sc.frame + 1 < binHi (q.snap.toNat - sc.span) sc.span (operandU64 c.a3) sc.bin) :
    (sc.nextFrame mm sum).good s q c := by
  obtain ⟨hch, hbins, hpos, hsnap, hcap, hframe⟩ := h
  exact ⟨hch, hbins, hpos, hsnap, hcap, fun hb => ⟨(hframe hb).1.trans sc.frame.le_succ, hf⟩⟩

theorem Scan.good_nextBin {s : State} {q : Port} {c : Command} {sc : Scan} (h : sc.good s q c) :
    (sc.nextBin (q.snap.toNat - sc.span) (operandU64 c.a3)).good s q c := by
  obtain ⟨hch, hbins, hpos, hsnap, hcap, -⟩ := h
  exact ⟨hch, hbins, hpos, hsnap, hcap, fun _ => ⟨le_rfl, binLo_lt_binHi _ _ _ _⟩⟩

theorem scanStart_good {s : State} {q : Port} {c : Command} {span : Nat}
    (he : envelopeError s.params s.active.spf.toNat c = none) (hpos : 0 < span)
    (hspan : span ≤ min q.snap.toNat s.params.capacity) :
    (scanStart (q.snap.toNat - span) span (operandU64 c.a3)).good s q c := by
  obtain ⟨hch, hbins⟩ := bounds_of_envelopeError_none he
  exact ⟨hch, hbins, hpos, hspan.trans (min_le_left _ _), hspan.trans (min_le_right _ _),
    fun _ => ⟨le_rfl, binLo_lt_binHi _ _ _ _⟩⟩

theorem Port.within_storeBin {q : Port} {bound b : Nat} (hq : ∀ arr, (q.series arr).within bound) (hb : b < bound)
    (ws : F64) (bins lo hi mn mx sum : Nat) (arr : SeriesArr) :
    ((q.storeBin ws bins b lo hi mn mx sum).series arr).within bound := by
  cases arr with
  | x => exact Memory.within_write (hq .x) hb _
  | ymin => exact Memory.within_write (hq .ymin) hb _
  | ymax => exact Memory.within_write (hq .ymax) hb _
  | mean => exact Memory.within_write (hq .mean) hb _

theorem Port.within_storeEmptyEnvelope {q : Port} {bound bins : Nat} (hq : ∀ arr, (q.series arr).within bound)
    (hb : bins ≤ bound) (ws : F64) (arr : SeriesArr) : ((q.storeEmptyEnvelope ws bins).series arr).within bound := by
  cases arr with
  | x => exact Memory.within_writeFrom (hq .x) 0 _ (.inl (by simpa using hb))
  | ymin => exact Memory.within_writeFrom (hq .ymin) 0 _ (.inl (by simpa using hb))
  | ymax => exact Memory.within_writeFrom (hq .ymax) 0 _ (.inl (by simpa using hb))
  | mean => exact Memory.within_writeFrom (hq .mean) 0 _ (.inl (by simpa using hb))

/-- A port that goes on scanning: it stays busy with neither DONE nor ERR, and its scan is good. -/
theorem Port.Good.scan {s : State} {q q' : Port} {c : Command} {sc : Scan} (hq : q.Good s) (hc : q.cmd = some c)
    (hop : c.op = 0x03) (hdone : q'.done = q.done) (herr : q'.err = q.err) (hsnap : q'.snap = q.snap)
    (hpast : q'.past ⊆ q.past) (hseries : ∀ arr, (q'.series arr).within s.params.maxBins)
    (hcmd : q'.cmd = some { c with work := .scanning sc }) (hsc : sc.good s q c) : q'.Good s := by
  have hbusy : q.busy = true := by simp [Port.busy, hc]
  obtain ⟨hd, he⟩ := hq.status.2 hbusy
  refine hq.update hsnap hpast ?_ hseries (fun c' hc' => ?_)
  · simp [hdone, herr, hd, he]
  · obtain rfl := Option.some.inj (hcmd.symm.trans hc')
    obtain ⟨hok, -⟩ := Command.good_iff.1 (hq.command c hc)
    refine Command.good_iff.2 ⟨hok, ?_⟩
    rintro _ ⟨⟩
    exact ⟨hop, (Scan.good_congr rfl rfl hsnap rfl rfl sc).2 hsc⟩

/-- A scan step of a port whose scan is good keeps the port good (R263, R268). -/
theorem envelopeScan_update (p : Nat) {s : State} {q : Port} {c : Command} {sc : Scan} (hc : q.cmd = some c)
    (hop : c.op = 0x03) (hsc : q.Good s → sc.good s q c) : s.PortUpdate p q (envelopeScan p s q c sc) := by
  rcases envelopeScan_cases p s q c sc with ⟨-, ht⟩ | ⟨-, hf, ht⟩ | ⟨hb, -, ht⟩
  · rw [ht]
    exact ⟨_, rfl, fun hq => hq.finish rfl rfl rfl (List.Subset.refl _) (hq.series_of rfl)⟩
  · rw [ht]
    exact ⟨_, rfl, fun hq => hq.scan hc hop rfl rfl rfl (keepNewer_subset _ _ _) (hq.series_of rfl) rfl
      (Scan.good_nextFrame (hsc hq) _ _ hf)⟩
  · rw [ht]
    refine ⟨_, rfl, fun hq => hq.scan hc hop rfl rfl rfl (keepNewer_subset _ _ _) ?_ rfl
      (Scan.good_nextBin (hsc hq))⟩
    obtain ⟨-, hbins, -⟩ := hsc hq
    have hread : ∀ arr, ((s.afterRingRead q (s.ringAddr sc.frame (operandU64 c.a0))).series arr).within
        s.params.maxBins := hq.series_of rfl
    exact fun arr => Port.series_of_arrays rfl arr ▸ Port.within_storeBin hread (hb.trans_le hbins) _ _ _ _ _ _ _ arr

theorem envelopeBegin_update (p : Nat) {s : State} {q : Port} {c : Command} (hc : q.cmd = some c)
    (hop : c.op = 0x03) : s.PortUpdate p q (envelopeBegin p s q c) := by
  rcases envelopeBegin_cases p s q c with ⟨code, -, ht⟩ | ⟨he, -, ht⟩ | ⟨he, hpos, ht⟩
  · rw [ht]
    exact ⟨_, rfl, fun hq => hq.fail _⟩
  · rw [ht]
    obtain ⟨-, hbins⟩ := bounds_of_envelopeError_none he
    exact ⟨_, rfl, fun hq => hq.finish rfl rfl rfl (List.Subset.refl _)
      (fun arr => Port.series_of_arrays rfl arr ▸ Port.within_storeEmptyEnvelope hq.series hbins _ arr)⟩
  · rw [ht]
    exact envelopeScan_update p hc hop (fun _ => scanStart_good he hpos (envelopeSpan_le _ _ _))

theorem envelopeStep_update (p : Nat) {s : State} {q : Port} {c : Command} (hc : q.cmd = some c)
    (hop : c.op = 0x03) : s.PortUpdate p q (envelopeStep p s q c) := by
  unfold envelopeStep
  split
  · exact envelopeBegin_update p hc hop
  · exact envelopeScan_update p hc hop (fun hq => ((Command.good_iff.1 (hq.command c hc)).2 _ ‹_›).2)

/-! ### The instructions -/

/-- Where no idle port meets an absent unit, HPF is a port command like the others (R246, R286). -/
theorem execHpf_eq_portCommand {p : Nat} {arr : SeriesArr} {s : State}
    (h : ∀ q, s.port? p = some q → q.cmd = none → s.params.hpfPresent = true) :
    execHpf p arr s = portCommand p 0x12 (arrField arr) (hpfStep p arr) s := by
  unfold execHpf
  split
  · rename_i q hq
    refine if_neg fun habsent => ?_
    simp only [Bool.and_eq_true, Bool.not_eq_true', Port.busy, Option.isSome_eq_false_iff, Option.isNone_iff_eq_none]
      at habsent
    obtain ⟨hf, hc⟩ := habsent
    rw [h q hq hc] at hf
    cases hf
  · exact (portCommand_missing ‹_›).symm

theorem execHpf_update {p : Nat} {arr : SeriesArr} {s t : State} (h : execHpf p arr s = .next t) :
    t = s.busError ∨ ∃ q, s.port? p = some q ∧ s.PortUpdate p q t := by
  by_cases hf : ∀ q, s.port? p = some q → q.cmd = none → s.params.hpfPresent = true
  · rw [execHpf_eq_portCommand hf] at h
    exact portCommand_update (fun q hq hc => .inr (.inr (.inr ⟨rfl, hf q hq hc⟩)))
      (fun q c _ _ => hpfStep_update p arr s q c) h
  · push Not at hf
    obtain ⟨q, hq, hc, hf⟩ := hf
    rw [execHpf_absent_idle arr (by simpa using hf) hq hc] at h
    cases h
    exact .inr ⟨q, hq, _, rfl, fun hgood => hgood.finish rfl rfl rfl (List.Subset.refl _) (hgood.series_of rfl)⟩

/-- A port command of any kind is a bus error or an update of its port. -/
theorem exec_port_update {i : Instr} {p : Nat} {s t : State} (hi : i.port? = some p) (h : exec i s = .next t) :
    t = s.busError ∨ ∃ q, s.port? p = some q ∧ s.PortUpdate p q t := by
  cases i with
  | snapshot r =>
    obtain rfl := Option.some.inj hi
    exact portCommand_update (fun _ _ _ => .inl (by decide)) (fun q c _ _ => snapshotStep_update r s q c) h
  | getSample r =>
    obtain rfl := Option.some.inj hi
    exact portCommand_update (fun _ _ _ => .inl (by decide)) (fun q c _ _ => getSampleStep_update r s q c) h
  | envelope r =>
    obtain rfl := Option.some.inj hi
    exact portCommand_update (fun _ _ _ => .inl (by decide)) (fun q c hc hop => envelopeStep_update r hc hop) h
  | ema r arr =>
    obtain rfl := Option.some.inj hi
    exact portCommand_update (fun _ _ _ => .inr (.inl rfl)) (fun q c _ _ => emaStep_update r arr s q c) h
  | sma r arr =>
    obtain rfl := Option.some.inj hi
    exact portCommand_update (fun _ _ _ => .inr (.inr (.inl rfl))) (fun q c _ _ => smaStep_update r arr s q c) h
  | hpf r arr =>
    obtain rfl := Option.some.inj hi
    exact execHpf_update h
  | start | stop | cfgCommit | ingressPacket | ingressTimeout | ingressSrcError | ingressKind3 => cases hi

end Sys2Proof.Machine
end

section
/-!
Which instruction each command space can deliver (R110, R117, R121, R122).
-/
namespace Sys2Proof

/-- The bytes of a number, read back (R84). -/
theorem natLE_bytesLE (len n : Nat) : natLE (bytesLE len n) = n % 256 ^ len := by
  induction len generalizing n with
  | zero => simp [bytesLE, natLE, Nat.mod_one]
  | succ len ih =>
    have hmod : n % 256 ^ (len + 1) = n % 256 + 256 * (n / 256 % 256 ^ len) := by rw [Nat.pow_succ', Nat.mod_mul]
    rw [bytesLE, natLE, ih, hmod]
    rfl

theorem natLE_bytesLE_word (v : Word64) : natLE (bytesLE 8 v.toNat) = v.toNat := by
  rw [natLE_bytesLE]
  exact Nat.mod_eq_of_lt v.isLt

/-- R121: a CTRL word is one of three commands. -/
theorem decode_ctrl_cases {v : Word64} {i : Instr} (h : decode .ctrl (bytesLE 8 v.toNat) = .ok i) :
    i = .start ∨ i = .stop ∨ (i = .cfgCommit ∧ v = 3) := by
  have hlen : ¬ (bytesLE 8 v.toNat).length ≠ 8 := by simp [Laws.bytesLE_length]
  simp only [decode, if_neg hlen, decodeCtrl, natLE_bytesLE_word] at h
  split_ifs at h with _ h1 h2 h3
  · exact .inl (Except.ok.inj h).symm
  · exact .inr (.inl (Except.ok.inj h).symm)
  · exact .inr (.inr ⟨(Except.ok.inj h).symm, BitVec.eq_of_toNat_eq h3⟩)

theorem decodePortArr_port {op p : Nat} {arr : SeriesArr} {i : Instr} (h : decodePortArr op arr p = some i) :
    i.port? = some p := by
  unfold decodePortArr at h
  split_ifs at h <;> cases h <;> rfl

theorem decodePortPlain_port {op p : Nat} {i : Instr} (h : decodePortPlain op p = some i) : i.port? = some p := by
  unfold decodePortPlain at h
  split_ifs at h <;> cases h <;> rfl

/-- R122: a word of a port is a command of that port. -/
theorem decode_port_port {p : Nat} {bs : List Byte} {i : Instr} (h : decode (.port p) bs = .ok i) :
    i.port? = some p := by
  unfold decode decodePort at h
  dsimp only at h
  by_cases hlen : bs.length ≠ 8
  · rw [if_pos hlen] at h
    cases h
  rw [if_neg hlen] at h
  by_cases hres : natLE bs / 2 ^ 10 ≠ 0
  · rw [if_pos hres] at h
    cases h
  rw [if_neg hres] at h
  split at h
  · cases h
    exact decodePortArr_port ‹_›
  · split at h
    · split_ifs at h
      cases h
      exact decodePortPlain_port ‹_›
    · cases h

/-- R117: an ingress transaction is one of four events, and a packet carries exactly CAPLEN bytes. -/
theorem decode_ingress_cases {bs : List Byte} {i : Instr} (h : decode .ingress bs = .ok i) :
    (∃ tag caplen wirelen data, i = .ingressPacket tag caplen wirelen data ∧ data.length = caplen.toNat) ∨
    i = .ingressTimeout ∨ i = .ingressSrcError ∨ i = .ingressKind3 := by
  simp only [decode, decodeIngress] at h
  split_ifs at h with _ _ hlen
  · cases h
    exact .inl ⟨_, _, _, _, rfl, by rw [hlen, BitVec.toNat_ofNat]⟩
  · exact .inr (.inl (Except.ok.inj h).symm)
  · exact .inr (.inr (.inl (Except.ok.inj h).symm))
  · exact .inr (.inr (.inr (Except.ok.inj h).symm))

end Sys2Proof
end

section
/-!
What a step of any agent can do, said once (R9, R10): the move it makes in the state it starts from.
-/
namespace Sys2Proof.Machine

/-! ### The registers a write reaches -/

/-- CTRL is reached at its own address only (R112). -/
theorem accessReg_eq_ctrl {P : Params} {addr : Word32} {size : Nat} (h : accessReg P addr size = some .ctrl) :
    size = 8 ∧ addr = 0x040 := by
  unfold accessReg at h
  split_ifs at h with h8
  refine ⟨h8, ?_⟩
  obtain ⟨-, ⟨-, hm⟩ | ⟨p, off, -, -, -, -, -, hm⟩ | ⟨p, off, -, -, -, -, hr⟩⟩ := regAt_cases h
  · exact BitVec.eq_of_toNat_eq (by simpa [controlMap] using hm)
  · simp [portMap] at hm
  · cases hr

/-- A mapped series entry is one that the array has (R113). -/
theorem regAt_series {P : Params} {addr p k : Nat} {arr : SeriesArr} (h : regAt P addr = some (.series p arr k)) :
    k < P.maxBins := by
  obtain ⟨-, ⟨-, hm⟩ | ⟨p', off, -, -, -, -, -, hm⟩ | ⟨p', off, -, -, -, hk, hr⟩⟩ := regAt_cases h
  · simp [controlMap] at hm
  · simp [portMap] at hm
  · cases hr
    exact hk

theorem regAt_of_accessReg {P : Params} {addr : Word32} {size : Nat} {r : Reg} (h : accessReg P addr size = some r) :
    regAt P addr.toNat = some r := by
  unfold accessReg at h
  split_ifs at h
  exact h

theorem State.updatePort_of_some {s : State} {p : Nat} {q : Port} (h : s.port? p = some q) (f : Port → Port) :
    s.updatePort p f = s.setPort p (f q) := by
  simp [State.updatePort, h]

theorem State.updatePort_of_none {s : State} {p : Nat} (h : s.port? p = none) (f : Port → Port) :
    s.updatePort p f = s := by
  simp [State.updatePort, h]

/-! ### Moves -/

/-- The state in which a scheduled step is performed: the step is taken from the schedule, and its choice number and the
response of a host access are recorded. -/
def State.begin (s : State) (rest : List Action) (pick : Nat) (resp : BusResp) : State :=
  { s with schedule := rest, pick := pick, busResp := resp }

@[simp] theorem State.begin_core (s : State) (rest : List Action) (pick : Nat) (resp : BusResp) :
    (s.begin rest pick resp).core = s.core := rfl

/-- Everything an agent can do to the core of the state in the step `a`. -/
inductive Move (a : Action) (s : State) : State → Prop
  /-- A register read, a register write outside the core, a refused command, an event not taken, a wait. -/
  | quiet {t : State} (h : t.core = s.core) : Move a s t
  /-- A step of a port's command, or a host write to a register of the port. -/
  | port {t : State} {p : Nat} {q : Port} (hq : s.port? p = some q) (h : s.PortUpdate p q t) : Move a s t
  /-- START begins a session (R140). -/
  | start (he : s.engine = .stopped) : Move a s
      { s with srcError := false, stopPending := false, grace := false, engine := .receive, ctrlResult := .ok }
  /-- STOP raises the flag (R142). -/
  | stop (he : s.engine ≠ .stopped) : Move a s
      { s with grace := s.grace || (!s.stopPending && s.receiving), stopPending := true, ctrlResult := .ok }
  /-- CFG_COMMIT is accepted (R150). -/
  | commit {pick : Nat} (ha : a = .host (.write 0x040 8 0x03) pick) (he : s.engine = .stopped)
      (hidle : ∀ q ∈ s.ports, q.cmd = none) (hv : s.staged.validate s.params.maxSpf = .ok) : Move a s s.rebuild
  /-- The engine exits on the stop flag (R201). -/
  | exit (he : s.engine = .receive) (hstop : s.stopPending = true) : Move a s s.engineExit
  /-- A loop iteration with no packet (R203). -/
  | noPacket (ha : s.accepts = true) : Move a s { s with grace := false }
  /-- The source reports an error (R204). -/
  | sourceError (ha : s.accepts = true) : Move a s
      { s with
        engine := .stopped
        stopPending := false
        srcError := true
        irqStatus := s.irqStatus ||| 2
        grace := false }
  /-- A packet is taken (R202). -/
  | take {k : Packet} (ha : s.accepts = true) (hk : k.data.length = k.caplen.toNat) : Move a s (s.takePacket k)
  /-- The engine goes on with the packet it holds (R200). -/
  | packet {t : State} (ha : a = .engine) (h : engineStep s = .next t) : Move a s t
  /-- Reset (R330). -/
  | reset (ha : a = .reset) : Move a s s.applyReset

/-! ### The moves of the control unit -/

theorem execStart_move {a : Action} {s t : State} (h : exec .start s = .next t) : Move a s t := by
  change execStart s = .next t at h
  unfold execStart at h
  split_ifs at h with hr
  · cases h
    exact .quiet rfl
  · cases h
    exact .start (by_contra fun he => hr (State.running_iff.2 he))

theorem execStop_move {a : Action} {s t : State} (h : exec .stop s = .next t) : Move a s t := by
  change execStop s = .next t at h
  unfold execStop at h
  split_ifs at h with hr
  · cases h
    exact .stop (State.running_iff.1 hr)
  · cases h
    exact .quiet rfl

theorem State.idle_of_not_anyBusy {s : State} (h : ¬ s.anyBusy = true) : ∀ q ∈ s.ports, q.cmd = none := by
  simpa [State.anyBusy, Port.busy] using h

theorem execCfgCommit_move {pick : Nat} {s t : State} (h : exec .cfgCommit s = .next t) :
    Move (.host (.write 0x040 8 0x03) pick) s t := by
  change execCfgCommit s = .next t at h
  unfold execCfgCommit at h
  split_ifs at h with hr hb
  · cases h
    exact .quiet rfl
  · cases h
    exact .quiet rfl
  · split at h
    · cases h
      exact .commit rfl (by_contra fun he => hr (State.running_iff.2 he)) (State.idle_of_not_anyBusy hb) ‹_›
    · cases h
      exact .quiet rfl

/-! ### The moves of the ports and of the capture engine -/

theorem exec_port_move {a : Action} {i : Instr} {p : Nat} {s t : State} (hi : i.port? = some p)
    (h : exec i s = .next t) : Move a s t := by
  rcases exec_port_update hi h with rfl | ⟨q, hq, hu⟩
  · exact .quiet rfl
  · exact .port hq hu

theorem State.takeNothing_move (a : Action) (s : State) : Move a s s.takeNothing := by
  unfold State.takeNothing
  split_ifs with ha
  · exact .noPacket ha
  · exact .quiet rfl

theorem execIngressSrcError_move {a : Action} {s t : State} (h : execIngressSrcError s = .next t) : Move a s t := by
  unfold execIngressSrcError at h
  split_ifs at h with ha
  · cases h
    exact .sourceError ha
  · cases h
    exact .quiet rfl

/-- An event offered to an engine that can take one. -/
theorem exec_ingress_move {a : Action} {bytes : List Byte} {i : Instr} {s t : State}
    (hd : decode .ingress bytes = .ok i) (ha : s.accepts = true) (h : exec i s = .next t) : Move a s t := by
  rcases decode_ingress_cases hd with ⟨tag, caplen, wirelen, data, rfl, hlen⟩ | rfl | rfl | rfl
  · change execIngressPacket tag caplen wirelen data s = .next t at h
    rw [execIngressPacket_taken ha] at h
    cases h
    exact .take ha hlen
  · cases h
    exact s.takeNothing_move a
  · exact execIngressSrcError_move h
  · cases h
    exact s.takeNothing_move a

/-! ### The moves of a host store -/

/-- A host write to a register that is no command register. -/
theorem State.hostStore_move {a : Action} {s : State} {addr : Nat} {r : Reg} (hr : regAt s.params addr = some r)
    (v : Word64) : Move a s (s.hostStore r v) := by
  unfold State.hostStore
  split_ifs
  · exact .quiet rfl
  · cases r with
    | parg p k =>
      cases hp : s.port? p with
      | none =>
        rw [State.storeReg, State.updatePort_of_none hp]
        exact .quiet rfl
      | some q =>
        rw [State.storeReg, State.updatePort_of_some hp]
        exact .port hp ⟨_, rfl, fun hq => hq.setArg k v⟩
    | series p arr k =>
      cases hp : s.port? p with
      | none =>
        rw [State.storeReg, State.updatePort_of_none hp]
        exact .quiet rfl
      | some q =>
        rw [State.storeReg, State.updatePort_of_some hp]
        exact .port hp ⟨_, rfl, fun hq => hq.setSeries arr (Memory.within_write (hq.series arr) (regAt_series hr) v)⟩
    | _ => exact .quiet rfl

/-! ### Every step is a move -/

/-- What becomes of a fetched step. -/
def Fetched.outcome : Fetched → Result
  | .run i s => exec i s
  | .done s => .next s
  | .refuse r => .refused r

theorem step_of_schedule {s : State} {a : Action} {rest : List Action} (h : s.schedule = a :: rest) :
    step s = (fetch a { s with schedule := rest }).outcome := by
  unfold step
  rw [h]
  rfl

/-- A host write makes a move in the state that has its response. -/
theorem fetchWrite_move {s t : State} {addr : Word32} {size pick : Nat} {v : Word64}
    (h : (fetchWrite s addr size v).outcome = .next t) :
    ∃ resp, Move (.host (.write addr size v) pick) { s with busResp := resp } t := by
  unfold fetchWrite at h
  split at h
  · cases h
    exact ⟨s.busResp, .quiet rfl⟩
  · obtain ⟨rfl, rfl⟩ := accessReg_eq_ctrl ‹_›
    refine ⟨.data 0, ?_⟩
    unfold fetchCtrl at h
    dsimp only at h
    split at h
    · rename_i i hd
      rcases decode_ctrl_cases hd with rfl | rfl | ⟨rfl, rfl⟩
      · exact execStart_move h
      · exact execStop_move h
      · exact execCfgCommit_move h
    · cases h
      exact .quiet rfl
  · rename_i p _
    refine ⟨.data 0, ?_⟩
    unfold fetchPcmd at h
    dsimp only at h
    split at h
    · cases h
      exact .quiet rfl
    · rename_i q hq
      split_ifs at h
      · cases h
        exact .port hq ⟨_, rfl, fun hq => hq.noteOverrun⟩
      · split at h
        · exact exec_port_move (decode_port_port ‹_›) h
        · cases h
          exact .port hq ⟨_, rfl, fun hq => hq.finish rfl rfl rfl (List.Subset.refl _) (hq.series_of rfl)⟩
  · cases h
    exact ⟨s.busResp, State.hostStore_move (regAt_of_accessReg ‹_›) v⟩

theorem State.hostRead_core (s : State) (addr : Word32) (size : Nat) : (s.hostRead addr size).core = s.core := by
  rcases s.hostRead_cases addr size with ⟨-, h⟩ | ⟨r, -, h⟩ <;> rw [h] <;> rfl

theorem fetchOffer_move {a : Action} {s t : State} {bytes : List Byte} (h : (fetchOffer s bytes).outcome = .next t) :
    Move a s t := by
  unfold fetchOffer at h
  split at h
  · cases h
  · split_ifs at h with ha
    · exact exec_ingress_move ‹_› ha h
    · cases h
      exact .quiet rfl

theorem fetchEngine_move {s t : State} (h : (fetchEngine s).outcome = .next t) : Move .engine s t := by
  unfold fetchEngine at h
  split at h
  · rename_i k hk
    change execIngressPacket k.tag k.caplen k.wirelen k.data s = .next t at h
    rw [execIngressPacket_held hk] at h
    exact .packet rfl h
  · split_ifs at h with hexit
    · cases h
      rw [Bool.and_eq_true] at hexit
      exact .exit (State.receiving_iff.1 hexit.1) hexit.2
    · cases h
      exact .quiet rfl

theorem fetchPort_move {a : Action} {s t : State} {p : Nat} (h : (fetchPort s p).outcome = .next t) : Move a s t := by
  unfold fetchPort at h
  split at h
  · cases h
    exact .quiet rfl
  · split at h
    · cases h
      exact .quiet rfl
    · split at h
      · exact exec_port_move (decode_port_port ‹_›) h
      · cases h
        exact .quiet rfl

/-- Every step with something scheduled makes a move in the state it begins in. -/
theorem step_move {s t : State} (h : step s = .next t) :
    t = s ∨ ∃ a rest pick resp, s.schedule = a :: rest ∧ Move a (s.begin rest pick resp) t := by
  cases hs : s.schedule with
  | nil =>
    rw [step_idle hs] at h
    cases h
    exact .inl rfl
  | cons a rest =>
    right
    rw [step_of_schedule hs] at h
    refine ⟨a, rest, ?_⟩
    cases a with
    | host acc pick =>
      cases acc with
      | read addr size =>
        cases h
        exact ⟨pick, s.busResp, rfl, .quiet (State.hostRead_core _ _ _)⟩
      | write addr size v =>
        obtain ⟨resp, hm⟩ := fetchWrite_move (pick := pick) h
        exact ⟨pick, resp, rfl, hm⟩
    | offer bytes => exact ⟨s.pick, s.busResp, rfl, fetchOffer_move h⟩
    | engine => exact ⟨s.pick, s.busResp, rfl, fetchEngine_move h⟩
    | port p pick => exact ⟨pick, s.busResp, rfl, fetchPort_move h⟩
    | reset =>
      cases h
      exact ⟨s.pick, s.busResp, rfl, .reset rfl⟩

end Sys2Proof.Machine
end

section
/-!
The capture engine keeps the invariant: what each packet step hands to the next one (R178, R206, R220, R240, R245).
-/
namespace Sys2Proof.Machine

/-! ### From the packet to the frame -/

/-- The payload LinkDemux finds lies inside the capture (R178). -/
theorem linkDemux_within {tag : Word16} {caplen off len : Nat} {d : List Byte}
    (h : linkDemux tag caplen d = .ok (off, len)) : off + len ≤ caplen := by
  unfold linkDemux at h
  split at h
  · cases h
  · split at h
    · cases h
    · unfold udpHeader at h
      split_ifs at h
      cases h
      omega

/-- What an accepted configuration guarantees (R151). -/
theorem ParserConfig.of_validate_ok {maxSpf : Nat} {c : ParserConfig} (h : c.validate maxSpf = .ok) :
    c.header.toNat + c.payload.toNat + c.tail.toNat = c.frameSize.toNat ∧ c.geometryOk = true := by
  unfold ParserConfig.validate at h
  split_ifs at h with _ hsplit _ _ hgeo
  exact ⟨by simpa using hsplit, by simpa using hgeo⟩

theorem packed10_length (groups : Nat) (bs : List Byte) (h : 5 * groups ≤ bs.length) :
    (packed10 groups bs).length = 4 * groups := by
  induction groups generalizing bs with
  | zero => simp [packed10]
  | succ groups ih =>
    match bs, h with
    | b0 :: b1 :: b2 :: b3 :: b4 :: rest, h =>
      simp only [List.length_cons] at h
      rw [packed10, List.length_append, ih rest (by omega)]
      simp only [unpackGroup, List.length_cons, List.length_nil]
      omega

theorem fixed16_length (spf : Nat) (bs : List Byte) (h : 2 * spf ≤ bs.length) : (fixed16 spf bs).length = spf := by
  induction spf generalizing bs with
  | zero => simp [fixed16]
  | succ spf ih =>
    match bs, h with
    | lo :: hi :: rest, h =>
      simp only [List.length_cons] at h
      rw [fixed16, List.length_cons, ih rest (by omega)]

/-- A frame that lies inside the packet has all its sample payload (R207). -/
theorem samplePayload_length {maxSpf : Nat} {c : ParserConfig} (hv : c.validate maxSpf = .ok) {off : Nat}
    {d : List Byte} (h : off + c.frameSize.toNat ≤ d.length) : (samplePayload c off d).length = c.payload.toNat := by
  obtain ⟨hsplit, -⟩ := ParserConfig.of_validate_ok hv
  rw [samplePayload, List.length_take, List.length_drop]
  omega

/-- Unpack gives exactly cfg.spf samples (R221, R222, R224). -/
theorem unpackFrame_length {maxSpf : Nat} {c : ParserConfig} (hv : c.validate maxSpf = .ok) {off : Nat}
    {d : List Byte} (h : off + c.frameSize.toNat ≤ d.length) {frame : List Word16}
    (hu : unpackFrame c off d = some frame) : frame.length = c.spf.toNat := by
  have hlen := samplePayload_length hv h
  obtain ⟨-, hgeo⟩ := ParserConfig.of_validate_ok hv
  unfold ParserConfig.geometryOk at hgeo
  unfold unpackFrame at hu
  by_cases h0 : c.pack = 0
  · rw [if_pos h0] at hgeo hu
    cases hu
    have hspf := of_decide_eq_true hgeo
    rw [packed10_length _ _ (by omega)]
    omega
  · rw [if_neg h0] at hgeo hu
    split_ifs at hu
    cases hu
    have hspf := of_decide_eq_true hgeo
    exact fixed16_length _ _ (by omega)

/-! ### The ring -/

/-- The slot of a frame and a channel is a word of the ring (R44). -/
theorem State.ringAddr_lt {s : State} (hC : 1 ≤ s.params.capacity) (i : Nat) {ch : Nat} (hch : ch < s.active.spf.toNat) :
    s.ringAddr i ch < s.params.capacity * s.active.spf.toNat := by
  have hi : i % s.params.capacity + 1 ≤ s.params.capacity := Nat.mod_lt i hC
  calc s.ringAddr i ch < (i % s.params.capacity) * s.active.spf.toNat + s.active.spf.toNat := Nat.add_lt_add_left hch _
    _ = (i % s.params.capacity + 1) * s.active.spf.toNat := (Nat.succ_mul _ _).symm
    _ ≤ s.params.capacity * s.active.spf.toNat := Nat.mul_le_mul_right _ hi

/-- Slots of different frames modulo C, and different channels, are different words (R44). -/
theorem State.ringAddr_inj {s : State} {i j ch ch' : Nat} (hch : ch < s.active.spf.toNat)
    (hch' : ch' < s.active.spf.toNat) (h : s.ringAddr i ch = s.ringAddr j ch') :
    i % s.params.capacity = j % s.params.capacity ∧ ch = ch' := by
  have hdiv : ∀ k c, c < s.active.spf.toNat → s.ringAddr k c / s.active.spf.toNat = k % s.params.capacity := by
    intro k c hc
    rw [State.ringAddr, Nat.mul_comm, Nat.mul_add_div (Nat.zero_lt_of_lt hc), Nat.div_eq_of_lt hc, Nat.add_zero]
  have hmod : i % s.params.capacity = j % s.params.capacity := by rw [← hdiv i ch hch, h, hdiv j ch' hch']
  refine ⟨hmod, ?_⟩
  unfold State.ringAddr at h
  rw [hmod] at h
  exact Nat.add_left_cancel h

/-- Every index below W names a written word: its slot is that of a retained frame (R245). -/
theorem State.Inv.written_below {s : State} (hs : s.Inv) {i ch : Nat} (hi : i < s.wcount.toNat)
    (hch : ch < s.active.spf.toNat) : (s.ring.read (s.ringAddr i ch)).isSome := by
  obtain ⟨hC, -⟩ := hs.params_valid
  let d := s.wcount.toNat - 1 - i
  let j := i + s.params.capacity * (d / s.params.capacity)
  have hd : s.params.capacity * (d / s.params.capacity) + d % s.params.capacity = d := Nat.div_add_mod _ _
  have hlt : d % s.params.capacity < s.params.capacity := Nat.mod_lt _ hC
  have hj : validIndex s.params.capacity s.wcount.toNat j = true := by
    rw [validIndex, decide_eq_true_eq]
    omega
  have haddr : s.ringAddr i ch = s.ringAddr j ch := by
    rw [State.ringAddr, State.ringAddr, Nat.add_mul_mod_self_left]
  rw [haddr]
  exact hs.retained_written j ch hj hch

theorem State.ringWrite_isSome {s : State} {b : Nat} (h : (s.ring.read b).isSome) (a : Nat) (v : Word16) :
    ((s.ringWrite a v).ring.read b).isSome := by
  by_cases hb : b = a
  · simp [State.ringWrite, hb]
  · simpa [State.ringWrite, Memory.read_write_other _ _ _ _ hb] using h

/-- Ports stay good when a word is written, as what it held before is on their record (R92, R245). -/
theorem State.Inv.ringWrite_ports_good {s : State} (hs : s.Inv) (a : Nat) (v : Word16) :
    ∀ q ∈ (s.ringWrite a v).ports, q.Good (s.ringWrite a v) := by
  intro q' hq'
  obtain ⟨q, hq, rfl⟩ := List.mem_map.1 hq'
  have hgood := hs.ports_good q hq
  exact
    { status := hgood.status
      snap_le := hgood.snap_le
      series := fun arr => Port.series_of_arrays rfl arr ▸ hgood.series arr
      command := fun c hc => (Command.good_congr rfl rfl rfl c).2 (hgood.command c hc)
      past_written := fun i ch hi hch e he hea => by
        rcases List.mem_cons.1 he with rfl | he
        · have hlt : i < q.snap.toNat := (of_decide_eq_true hi).1
          have haddr : a = s.ringAddr i ch := hea
          rw [haddr]
          exact hs.written_below (hlt.trans_le hgood.snap_le) hch
        · exact hgood.past_written i ch hi hch e he hea }

theorem toNat_succ_of_ne_allOnes {w : Word64} (h : w ≠ BitVec.allOnes 64) : (w + 1).toNat = w.toNat + 1 := by
  have hne : w.toNat ≠ 2 ^ 64 - 1 := fun hw => h (BitVec.eq_of_toNat_eq (by rw [hw, BitVec.toNat_allOnes]))
  have hlt := w.isLt
  have hone : (1 : Word64).toNat = 1 := rfl
  rw [BitVec.toNat_add, hone, Nat.mod_eq_of_lt (by omega)]

/-! ### The steps of PUBLISH -/

/-- One RingWrite of the append (R240). -/
theorem State.Inv.append_word {s : State} (hs : s.Inv) {k : Packet} {frame : List Word16} {w : Word64} {ch : Nat}
    (he : s.engine = .publish k frame (.write w ch)) (hch : ch < s.active.spf.toNat) (v : Word16) :
    State.Inv { s.ringWrite (s.ringAddr w.toNat ch) v with engine := .publish k frame (.write w (ch + 1)) } := by
  have hgood := hs.engine_good
  rw [he] at hgood
  obtain ⟨hlen, hw, hne, -, hwritten⟩ := hgood
  have hgrace : s.grace = false := hs.grace_of_not_receiving (by rw [State.receiving, he])
  exact
    { params_valid := hs.params_valid
      active_valid := hs.active_valid
      port_count := (List.length_map _).trans hs.port_count
      stop_running := fun _ => rfl
      grace_waiting := fun hg => absurd (hgrace.symm.trans hg) (by decide)
      engine_good := by
        refine ⟨hlen, hw, hne, hch, fun c hc => ?_⟩
        rcases Nat.lt_succ_iff_lt_or_eq.1 hc with hc | rfl
        · exact State.ringWrite_isSome (hwritten c hc) _ v
        · exact Option.isSome_of_eq_some (Memory.read_write_same _ _ v)
      ring_within := Memory.within_write hs.ring_within (State.ringAddr_lt hs.params_valid.1 _ hch) v
      retained_written := fun i c hi hc => State.ringWrite_isSome (hs.retained_written i c hi hc) _ v
      ports_good := fun q hq => (hs.ringWrite_ports_good _ v q hq).mono rfl rfl le_rfl }

/-- The publish of a frame whose words are all written (R241). -/
theorem State.Inv.publish {s : State} (hs : s.Inv) {k : Packet} {frame : List Word16} {w : Word64} {ch : Nat}
    (he : s.engine = .publish k frame (.write w ch)) (hch : ¬ ch < s.active.spf.toNat) :
    State.Inv { s.publishW w with engine := .publish k frame .finish } := by
  have hgood := hs.engine_good
  rw [he] at hgood
  obtain ⟨hlen, rfl, hne, hle, hwritten⟩ := hgood
  have hsucc : (s.wcount + 1).toNat = s.wcount.toNat + 1 := toNat_succ_of_ne_allOnes hne
  have hgrace : s.grace = false := hs.grace_of_not_receiving (by rw [State.receiving, he])
  exact
    { params_valid := hs.params_valid
      active_valid := hs.active_valid
      port_count := hs.port_count
      stop_running := fun _ => rfl
      grace_waiting := fun hg => absurd (hgrace.symm.trans hg) (by decide)
      engine_good := ⟨hlen, trivial⟩
      ring_within := hs.ring_within
      retained_written := fun i c hi hc => by
        have hi' : i < (s.wcount + 1).toNat := (of_decide_eq_true hi).1
        rcases Nat.lt_succ_iff_lt_or_eq.1 (hsucc ▸ hi') with hi' | rfl
        · exact hs.written_below hi' hc
        · exact hwritten c (hc.trans_le (Nat.le_of_not_lt hch))
      ports_good := fun q hq => (hs.ports_good q hq).mono rfl rfl (hsucc ▸ Nat.le_succ _) }

theorem publishStep_inv {s t : State} {k : Packet} {frame : List Word16} {stage : PubStage} (hs : s.Inv)
    (he : s.engine = .publish k frame stage) (h : publishStep s k frame stage = .next t) : t.Inv := by
  have hgood := hs.engine_good
  rw [he] at hgood
  obtain ⟨hlen, -⟩ := hgood
  have hrec : s.receiving = false := by rw [State.receiving, he]
  rcases publishStep_cases h with ⟨-, rfl⟩ | ⟨-, rfl⟩ | ⟨-, hne, rfl⟩ | ⟨w, ch, rfl, hch, rfl⟩ | ⟨w, ch, rfl, hch, rfl⟩ |
    ⟨-, rfl⟩
  · exact hs.of_packet hrec rfl rfl rfl ⟨hlen, trivial⟩
  · exact hs.of_packet hrec rfl rfl rfl ⟨hlen, trivial⟩
  · exact hs.of_packet hrec rfl rfl rfl ⟨hlen, rfl, hne, Nat.zero_le _, fun c hc => absurd hc c.not_lt_zero⟩
  · exact hs.append_word he hch _
  · exact hs.publish he hch
  · exact hs.of_packet hrec rfl rfl rfl trivial

/-- Every step of the engine on the packet it holds (R200). -/
theorem engineStep_inv {s t : State} (hs : s.Inv) (h : engineStep s = .next t) : t.Inv := by
  have hgood := hs.engine_good
  unfold engineStep at h
  cases he : s.engine with
  | stopped | receive =>
    rw [he] at h
    cases h
    exact hs
  | demux k =>
    have hrec : s.receiving = false := by rw [State.receiving, he]
    rw [he] at h hgood
    cases h
    unfold demuxStep
    split
    · exact hs.of_packet hrec rfl rfl rfl ⟨hgood, linkDemux_within ‹_›⟩
    · exact hs.of_packet hrec rfl rfl rfl trivial
  | lengthCheck k off len =>
    have hrec : s.receiving = false := by rw [State.receiving, he]
    rw [he] at h hgood
    cases h
    unfold lengthStep
    split_ifs with hlen
    · exact hs.of_packet hrec rfl rfl rfl ⟨hgood.1, hgood.2, hlen⟩
    · exact hs.of_packet hrec rfl rfl rfl trivial
  | unpack k off len =>
    have hrec : s.receiving = false := by rw [State.receiving, he]
    rw [he] at h hgood
    obtain ⟨⟨hdata, -⟩, hin, hlen⟩ := hgood
    cases h
    unfold unpackStep
    split
    · have hfit : off + s.active.frameSize.toNat ≤ k.data.length := by rw [hdata, ← hlen]; exact hin
      exact hs.of_packet hrec rfl rfl rfl ⟨unpackFrame_length hs.active_valid hfit ‹_›, trivial⟩
    · exact hs.of_packet hrec rfl rfl rfl trivial
  | publish k frame stage =>
    rw [he] at h
    exact publishStep_inv hs he h
  | drop k reason =>
    have hrec : s.receiving = false := by rw [State.receiving, he]
    rw [he] at h
    cases h
    exact hs.of_packet hrec rfl rfl rfl trivial

end Sys2Proof.Machine
end

section
/-!
Every move keeps the invariant, and which moves touch the active configuration, W and the ring.
-/
namespace Sys2Proof.Machine

/-! ### The invariant -/

/-- The rebuild of an accepted commit empties the ring and every snapshot (R150). -/
theorem State.Inv.rebuild {s : State} (hs : s.Inv) (he : s.engine = .stopped) (hidle : ∀ q ∈ s.ports, q.cmd = none)
    (hv : s.staged.validate s.params.maxSpf = .ok) : s.rebuild.Inv where
  params_valid := hs.params_valid
  active_valid := hv
  port_count := (List.length_map _).trans hs.port_count
  stop_running := hs.stop_running
  grace_waiting := hs.grace_waiting
  engine_good := by
    change Engine.good s.rebuild s.engine
    rw [he]
    trivial
  ring_within := Memory.within_nil _
  retained_written i ch hi := by
    have hz : s.rebuild.wcount.toNat = 0 := rfl
    rw [hz, validIndex_zero] at hi
    cases hi
  ports_good q' hq' := by
    obtain ⟨q, hq, rfl⟩ := List.mem_map.1 hq'
    have hgood := hs.ports_good q hq
    exact
      { status := hgood.status
        snap_le := Nat.zero_le _
        series := fun arr => Port.series_of_arrays rfl arr ▸ hgood.series arr
        command := fun c hc => absurd ((hidle q hq).symm.trans hc) (by simp)
        past_written := fun i ch _ _ e he => nomatch he }

/-- A packet is taken into DEMUX within MAX_CAPLEN, and dropped above it (R202). -/
theorem State.Inv.takePacket {s : State} (hs : s.Inv) {k : Packet} (hk : k.data.length = k.caplen.toNat) :
    (s.takePacket k).Inv := by
  unfold State.takePacket
  split_ifs with hcap
  · exact hs.of_store rfl (fun _ => rfl) (fun h => nomatch h) trivial
  · exact hs.of_store rfl (fun _ => rfl) (fun h => nomatch h) ⟨hk, Nat.le_of_not_lt hcap⟩

theorem Move.inv {a : Action} {s t : State} (hs : s.Inv) (h : Move a s t) : t.Inv := by
  cases h with
  | quiet h => exact hs.of_core h
  | port hq h => exact h.inv hs hq
  | start he => exact hs.of_store rfl (fun h => nomatch h) (fun h => nomatch h) trivial
  | stop he =>
    refine hs.of_store rfl (fun _ => State.running_iff.2 he) (fun hg => ⟨rfl, ?_⟩)
      ((Engine.good_congr rfl _).2 hs.engine_good)
    simp only [Bool.or_eq_true, Bool.and_eq_true] at hg
    rcases hg with hg | ⟨-, hr⟩
    · exact (hs.grace_waiting hg).2
    · exact hr
  | commit ha he hidle hv => exact hs.rebuild he hidle hv
  | exit he hstop => exact hs.of_store rfl (fun h => nomatch h) (fun h => nomatch h) trivial
  | noPacket ha =>
    exact hs.of_store rfl hs.stop_running (fun h => nomatch h) ((Engine.good_congr rfl _).2 hs.engine_good)
  | sourceError ha => exact hs.of_store rfl (fun h => nomatch h) (fun h => nomatch h) trivial
  | take ha hk => exact hs.takePacket hk
  | packet ha h => exact engineStep_inv hs h
  | reset ha => exact (State.resetWith_inv hs.params_valid).of_core rfl

/-- Settles O59: the step is a move from a state with the same core. -/
theorem invariantIsKeptByEveryStep : Obligations.InvariantIsKeptByEveryStep := by
  intro s t hs h
  rcases step_move h with rfl | ⟨a, rest, pick, resp, -, hm⟩
  · exact hs
  · exact hm.inv (hs.of_core (s.begin_core rest pick resp))

/-! ### The active configuration, W and the ring -/

/-- A packet step leaves FrameRing alone, or writes one word of the frame being appended, or publishes it. -/
theorem engineStep_frames {s t : State} (h : engineStep s = .next t) :
    t.frames = s.frames ∨
    (∃ k frame w ch v, s.engine = .publish k frame (.write w ch) ∧ ch < s.active.spf.toNat ∧
      t.frames = (s.ringWrite (s.ringAddr w.toNat ch) v).frames) ∨
    (∃ k frame w ch, s.engine = .publish k frame (.write w ch) ∧ t.frames = (s.publishW w).frames) := by
  unfold engineStep at h
  cases he : s.engine with
  | stopped | receive | drop =>
    rw [he] at h
    cases h
    exact .inl rfl
  | demux k =>
    rw [he] at h
    cases h
    unfold demuxStep
    split <;> exact .inl rfl
  | lengthCheck k off len =>
    rw [he] at h
    cases h
    unfold lengthStep
    split <;> exact .inl rfl
  | unpack k off len =>
    rw [he] at h
    cases h
    unfold unpackStep
    split <;> exact .inl rfl
  | publish k frame stage =>
    rw [he] at h
    rcases publishStep_cases h with ⟨-, rfl⟩ | ⟨-, rfl⟩ | ⟨-, -, rfl⟩ | ⟨w, ch, rfl, hch, rfl⟩ | ⟨w, ch, rfl, -, rfl⟩ |
      ⟨-, rfl⟩
    · exact .inl rfl
    · exact .inl rfl
    · exact .inl rfl
    · exact .inr (.inl ⟨k, frame, w, ch, _, rfl, hch, rfl⟩)
    · exact .inr (.inr ⟨k, frame, w, ch, rfl, rfl⟩)
    · exact .inl rfl

/-- The moves that touch FrameRing: the append's writes, its publish, an accepted commit and reset. -/
theorem Move.frames_cases {a : Action} {s t : State} (h : Move a s t) :
    t.frames = s.frames ∨
    (∃ k frame w ch v, s.engine = .publish k frame (.write w ch) ∧ ch < s.active.spf.toNat ∧
      t.frames = (s.ringWrite (s.ringAddr w.toNat ch) v).frames) ∨
    (∃ k frame w ch, s.engine = .publish k frame (.write w ch) ∧ t.frames = (s.publishW w).frames) ∨
    (∃ pick, a = .host (.write 0x040 8 0x03) pick ∧ s.engine = .stopped ∧ (∀ q ∈ s.ports, q.cmd = none) ∧
      s.staged.validate s.params.maxSpf = .ok ∧ t = s.rebuild) ∨
    (a = .reset ∧ t = s.applyReset) := by
  cases h with
  | quiet h =>
    obtain ⟨hst, -⟩ := State.core_eq_iff.1 h
    exact .inl (State.store_eq_iff.1 hst).1
  | port hq h => exact .inl h.frames_eq
  | commit ha he hidle hv => exact .inr (.inr (.inr (.inl ⟨_, ha, he, hidle, hv, rfl⟩)))
  | packet ha h =>
    rcases engineStep_frames h with h | h | h
    · exact .inl h
    · exact .inr (.inl h)
    · exact .inr (.inr (.inl h))
  | reset ha => exact .inr (.inr (.inr (.inr ⟨ha, rfl⟩)))
  | start | stop | exit | noPacket | sourceError | take => exact .inl rfl

/-- Settles O10: of the moves that touch FrameRing only the commit and reset change the configuration. -/
theorem onlyACommitOrResetChangesTheConfiguration : Obligations.OnlyACommitOrResetChangesTheConfiguration := by
  intro s t h
  rcases step_move h with rfl | ⟨a, rest, pick, resp, hsched, hm⟩
  · exact .inl rfl
  · rcases hm.frames_cases with hf | ⟨_, _, _, _, _, -, -, hf⟩ | ⟨_, _, _, _, -, hf⟩ |
      ⟨pick', rfl, he, hidle, hv, rfl⟩ | ⟨rfl, -⟩
    · exact .inl (State.frames_eq_iff.1 hf).2.1
    · exact .inl (State.frames_eq_iff.1 hf).2.1
    · exact .inl (State.frames_eq_iff.1 hf).2.1
    · exact .inr (.inl ⟨rfl, he, hidle, hv, rfl, pick', rest, hsched⟩)
    · exact .inr (.inr ⟨rest, hsched⟩)

/-- Frames less than C apart have different slots (R44). -/
theorem mod_ne_of_lt_capacity {C i w : Nat} (hi : i < w) (hC : w - i < C) : i % C ≠ w % C := by
  intro h
  have hdvd : C ∣ w - i := (Nat.modEq_iff_dvd' hi.le).1 h
  have := Nat.le_of_dvd (by omega) hdvd
  omega

/-- A write of the append misses every younger frame than the oldest retained one (R94). -/
theorem Move.read_younger {a : Action} {s t : State} (hs : s.Inv) (h : Move a s t)
    (hw : s.wcount.toNat ≤ t.wcount.toNat) {i ch : Nat} (hi : i < s.wcount.toNat)
    (hC : s.wcount.toNat - i < s.params.capacity) (hch : ch < s.active.spf.toNat) :
    t.ring.read (t.ringAddr i ch) = s.ring.read (s.ringAddr i ch) := by
  rcases h.frames_cases with hf | ⟨k, frame, w, c, v, he, hc, hf⟩ | ⟨_, _, _, _, -, hf⟩ | ⟨_, -, -, -, -, rfl⟩ |
    ⟨-, rfl⟩
  · obtain ⟨hp, ha, -, hr⟩ := State.frames_eq_iff.1 hf
    rw [State.ringAddr, hp, ha, hr]
    rfl
  · obtain ⟨hp, ha, -, hr⟩ := State.frames_eq_iff.1 hf
    have hgood := hs.engine_good
    rw [he] at hgood
    obtain ⟨-, rfl, -⟩ := hgood
    have hne : s.ringAddr i ch ≠ s.ringAddr s.wcount.toNat c := fun haddr =>
      mod_ne_of_lt_capacity hi hC (State.ringAddr_inj hch hc haddr).1
    have haddr : t.ringAddr i ch = s.ringAddr i ch := by
      rw [State.ringAddr, hp, ha]
      rfl
    rw [haddr, hr]
    exact Memory.read_write_other _ _ _ v hne
  · obtain ⟨hp, ha, -, hr⟩ := State.frames_eq_iff.1 hf
    rw [State.ringAddr, hp, ha, hr]
    rfl
  · have hz : s.rebuild.wcount.toNat = 0 := rfl
    omega
  · have hz : s.applyReset.wcount.toNat = 0 := rfl
    omega

/-- Settles O46. -/
theorem stepsKeepEveryFrameButTheOldest : Obligations.StepsKeepEveryFrameButTheOldest := by
  intro s t hs h hw i ch hi hC hch
  rcases step_move h with rfl | ⟨a, rest, pick, resp, -, hm⟩
  · rfl
  · exact hm.read_younger (hs.of_core (s.begin_core rest pick resp)) hw hi hC hch

end Sys2Proof.Machine
end

section
/-!
The bits of the status words (R34, R54), and the acceptance of a port command (R246).
-/
namespace Sys2Proof.Machine

/-! ### Status words -/

theorem getLsbD_flagBit (b : Bool) {k : Nat} (hk : k < 64) (j : Nat) :
    (flagBit b k).getLsbD j = (b && decide (j = k)) := by
  cases b with
  | false => simp [flagBit]
  | true =>
    have hbit : flagBit true k = BitVec.ofNat 64 (2 ^ k) := congrArg (BitVec.ofNat 64) (Nat.one_shiftLeft k)
    rw [hbit, BitVec.getLsbD_ofNat, Nat.testBit_two_pow, Bool.true_and]
    by_cases hj : j = k
    · simp [hj, hk]
    · simp [hj, Ne.symm hj]

/-- A code in bits 8 and up. -/
theorem getLsbD_code (c : BitVec 8) (j : Nat) :
    (c.setWidth 64 <<< 8).getLsbD j = (decide (8 ≤ j) && c.getLsbD (j - 8)) := by
  rw [BitVec.getLsbD_shiftLeft, BitVec.getLsbD_setWidth]
  by_cases hj : j < 64
  · have hj' : j - 8 < 64 := by omega
    by_cases h8 : j < 8
    · simp [h8]
    · simp [hj, hj', h8, Nat.le_of_not_lt h8]
  · have hc : c.getLsbD (j - 8) = false := BitVec.getLsbD_of_ge c (j - 8) (by omega)
    simp [hc]

theorem State.running_eq (s : State) : s.running = decide (s.engine ≠ .stopped) :=
  Bool.eq_iff_iff.2 (State.running_iff.trans decide_eq_true_iff.symm)

theorem State.getLsbD_ctrlStatusWord (s : State) (j : Nat) :
    s.ctrlStatusWord.getLsbD j =
      if j = 0 then s.running else if j = 1 then s.stopPending else if j = 2 then s.srcError
      else if 8 ≤ j then s.ctrlResult.code.getLsbD (j - 8) else false := by
  simp only [State.ctrlStatusWord, BitVec.getLsbD_or, getLsbD_code, getLsbD_flagBit _ (show 0 < 64 by decide),
    getLsbD_flagBit _ (show 1 < 64 by decide), getLsbD_flagBit _ (show 2 < 64 by decide)]
  split_ifs with h0 h1 h2 h8
  · simp [h0]
  · simp [h1]
  · simp [h2]
  · simp [h0, h1, h2, h8]
  · simp [h0, h1, h2, h8]

theorem Port.getLsbD_statusWord (q : Port) (j : Nat) :
    q.statusWord.getLsbD j =
      if j = 0 then q.busy else if j = 1 then q.done else if j = 2 then q.err else if j = 3 then q.overrun
      else if 8 ≤ j then q.result.code.getLsbD (j - 8) else false := by
  simp only [Port.statusWord, BitVec.getLsbD_or, getLsbD_code, getLsbD_flagBit _ (show 0 < 64 by decide),
    getLsbD_flagBit _ (show 1 < 64 by decide), getLsbD_flagBit _ (show 2 < 64 by decide),
    getLsbD_flagBit _ (show 3 < 64 by decide)]
  split_ifs with h0 h1 h2 h3 h8
  · simp [h0]
  · simp [h1]
  · simp [h2]
  · simp [h3]
  · simp [h0, h1, h2, h3, h8]
  · simp [h0, h1, h2, h3, h8]

/-- Settles O56. -/
theorem statusWordsPlaceTheirBits : Obligations.StatusWordsPlaceTheirBits :=
  ⟨fun s j => s.running_eq ▸ s.getLsbD_ctrlStatusWord j, Port.getLsbD_statusWord, by decide, by decide⟩

/-! ### Acceptance -/

/-- An idle port accepts each of the six commands (R246). -/
theorem exec_port_idle {i : Instr} {p : Nat} {op : BitVec 8} {arr : BitVec 2} {s : State} {q : Port}
    (hi : portParts i = some (p, op, arr)) (hf : op = 0x12 → s.params.hpfPresent = true) (hq : s.port? p = some q)
    (hc : q.cmd = none) : exec i s = .next (s.setPort p (q.accept op arr)) := by
  cases i with
  | snapshot | getSample | envelope | ema | sma =>
    cases hi
    exact portCommand_idle hq hc
  | hpf r a =>
    cases hi
    exact (execHpf_eq_portCommand fun _ _ _ => hf rfl).trans (portCommand_idle hq hc)
  | start | stop | cfgCommit | ingressPacket | ingressTimeout | ingressSrcError | ingressKind3 => cases hi

/-- Settles O11. -/
theorem idlePortAcceptsACommand : Obligations.IdlePortAcceptsACommand :=
  fun _ _ _ _ _ _ hi hf hq hc => exec_port_idle hi hf hq hc

end Sys2Proof.Machine
end

section
/-!
Host accesses to registers that run no command: what a scheduled write stores and what a scheduled read returns (R82, R83,
R97).
-/
namespace Sys2Proof.Machine

/-! ### A scheduled access -/

theorem accessReg_of_regAt {P : Params} {addr : Word32} {r : Reg} (h : regAt P addr.toNat = some r) :
    accessReg P addr 8 = some r :=
  (if_pos rfl).trans h

theorem fetchWrite_store {s : State} {addr : Word32} {r : Reg} (hr : accessReg s.params addr 8 = some r)
    (hctrl : r ≠ .ctrl) (hpcmd : ∀ p, r ≠ .pcmd p) (v : Word64) : fetchWrite s addr 8 v = .done (s.hostStore r v) := by
  unfold fetchWrite
  rw [hr]
  cases r with
  | ctrl => exact absurd rfl hctrl
  | pcmd p => exact absurd rfl (hpcmd p)
  | _ => rfl

/-- A scheduled write to a register other than CTRL and PCMD is a store (R82). -/
theorem step_write {s : State} {addr : Word32} {r : Reg} {v : Word64} {pick : Nat} {rest : List Action}
    (hr : regAt s.params addr.toNat = some r) (hctrl : r ≠ .ctrl) (hpcmd : ∀ p, r ≠ .pcmd p)
    (hs : s.schedule = .host (.write addr 8 v) pick :: rest) :
    step s = .next ((s.begin rest pick s.busResp).hostStore r v) :=
  (step_of_schedule hs).trans
    (congrArg Fetched.outcome
      (fetchWrite_store (s := s.begin rest pick s.busResp) (accessReg_of_regAt hr) hctrl hpcmd v))

/-- What a read of a mapped register leaves: the response, and the model's own record of it (R102, logs 10, 13). -/
def State.answered (s : State) (r : Reg) : State :=
  { s.noteSeen r with busResp := .data (s.readReg r), draws := s.draws + s.readDraws r }

theorem State.hostRead_of_mapped {s : State} {addr : Word32} {r : Reg} (hr : regAt s.params addr.toNat = some r) :
    s.hostRead addr 8 = s.answered r := by
  unfold State.hostRead
  rw [accessReg_of_regAt hr]
  rfl

/-- A scheduled read of a mapped register (R82). -/
theorem step_read {s : State} {addr : Word32} {r : Reg} {pick : Nat} {rest : List Action}
    (hr : regAt s.params addr.toNat = some r) (hs : s.schedule = .host (.read addr 8) pick :: rest) :
    step s = .next ((s.begin rest pick s.busResp).answered r) :=
  (step_of_schedule hs).trans
    (congrArg Host.Outcome.next (State.hostRead_of_mapped (s := s.begin rest pick s.busResp) hr))

/-- A store that is not refused. -/
theorem State.hostStore_of_accepted {s : State} {r : Reg} (h : s.writeRefused r = false) (v : Word64) :
    s.hostStore r v = { s.storeReg v r with busResp := .data 0 } := by
  rw [State.hostStore, h]
  rfl

/-- Only the two stats have a record of what a read has seen (log 13). -/
theorem State.noteSeen_of_ne {s : State} {r : Reg} (hf : r ≠ .framesReceived) (hb : r ≠ .bytesReceived) :
    s.noteSeen r = s := by
  rw [State.noteSeen, if_neg hf, if_neg hb]

/-! ### Series windows -/

theorem State.writeRefused_series {s : State} {p : Nat} {q : Port} (hq : s.port? p = some q) (arr : SeriesArr) (k : Nat) :
    s.writeRefused (.series p arr k) = q.busy := by
  simp [State.writeRefused, hq]

/-- Settles O52. -/
theorem seriesWindowWritesOneEntry : Obligations.SeriesWindowWritesOneEntry := by
  intro s p k pick arr q v addr rest hr hq hs
  have hq' : (s.begin rest pick s.busResp).port? p = some q := hq
  have hrefused := State.writeRefused_series hq' arr k
  rw [step_write hr (by simp) (by simp) hs]
  constructor
  · intro hc
    have hidle : q.busy = false := by simp [Port.busy, hc]
    refine ⟨(q.series arr).write k v, ?_, fun j => ?_⟩
    · rw [State.hostStore_of_accepted (hrefused.trans hidle), State.storeReg, State.updatePort_of_some hq']
      rfl
    · split_ifs with hj
      · rw [hj, Memory.read_write_same]
      · exact Memory.read_write_other _ _ _ v hj
  · intro hc
    have hbusy : q.busy = true := Option.isSome_iff_ne_none.2 hc
    rw [State.hostStore, hrefused, if_pos hbusy]
    rfl

/-! ### PARG registers -/

theorem Port.getArg_setArg (q : Port) (r : ArgReg) (v : Word64) : (q.setArg r v).getArg r = v := by
  cases r <;> rfl

theorem State.portValue_of_some {s : State} {p : Nat} {q : Port} (h : s.port? p = some q) (f : Port → Word64) :
    s.portValue p f = f q := by
  simp [State.portValue, h]

/-- A scheduled read of a PARG register changes nothing but its response (R56, R102). -/
theorem step_read_parg {s : State} {p pick : Nat} {q : Port} {r : ArgReg} {v : Word64} {addr : Word32}
    {rest : List Action} (hr : regAt s.params addr.toNat = some (.parg p r)) (hq : s.port? p = some q)
    (hv : q.getArg r = v) (hs : s.schedule = .host (.read addr 8) pick :: rest) :
    step s = .next { s with schedule := rest, pick := pick, busResp := .data v } := by
  have hq' : (s.begin rest pick s.busResp).port? p = some q := hq
  have hval : (s.begin rest pick s.busResp).readReg (.parg p r) = v := (State.portValue_of_some hq' _).trans hv
  rw [step_read hr hs, State.answered, State.noteSeen_of_ne (by simp) (by simp), hval]
  rfl

/-- A scheduled write of a PARG register changes nothing but that register and the response (R56, R97). -/
theorem step_write_parg {s : State} {p pick : Nat} {q : Port} {r : ArgReg} {v : Word64} {addr : Word32}
    {rest : List Action} (hr : regAt s.params addr.toNat = some (.parg p r)) (hq : s.port? p = some q)
    (hs : s.schedule = .host (.write addr 8 v) pick :: rest) :
    step s = .next
      { s with schedule := rest, pick := pick, busResp := .data 0, ports := s.ports.set p (q.setArg r v) } := by
  have hq' : (s.begin rest pick s.busResp).port? p = some q := hq
  rw [step_write hr (by simp) (by simp) hs, State.hostStore_of_accepted rfl, State.storeReg,
    State.updatePort_of_some hq']
  rfl

/-- Settles O54. -/
theorem pargWritesReadBack : Obligations.PargWritesReadBack := by
  intro s p pick pick' r q v addr rest hr hq hs
  refine ⟨_, step_write_parg hr hq hs, rfl, ?_⟩
  exact step_read_parg hr (State.port?_setPort_same (s := s) hq) (Port.getArg_setArg q r v) rfl

/-! ### IRQ registers -/

/-- NOTIFY is the OR of the enabled bits (R52). -/
theorem and_ne_zero_iff (a b : BitVec 2) :
    a &&& b ≠ 0 ↔ (a.getLsbD 0 = true ∧ b.getLsbD 0 = true) ∨ (a.getLsbD 1 = true ∧ b.getLsbD 1 = true) := by
  revert a b
  decide

/-- Settles O55. -/
theorem irqStatusIsWriteOneToClear : Obligations.IrqStatusIsWriteOneToClear := by
  refine ⟨fun s pick v rest hs => ?_, fun s pick v rest hs => ?_, fun s => ?_⟩
  · refine ⟨s.irqStatus &&& ~~~(v.setWidth 2), ?_, fun j hj => by simp [hj]⟩
    rw [step_write (r := .irqStatus) rfl (by simp) (by simp) hs, State.hostStore_of_accepted rfl]
    rfl
  · refine ⟨v.setWidth 2, ?_, fun j hj => by simp [hj]⟩
    rw [step_write (r := .irqEnable) rfl (by simp) (by simp) hs, State.hostStore_of_accepted rfl]
    rfl
  · rw [State.notify, decide_eq_true_iff]
    exact and_ne_zero_iff _ _

/-! ### Every register's value -/

/-- FEATURES bit by bit (R32). -/
theorem getLsbD_featuresWord (P : Params) (j : Nat) :
    (featuresWord P).getLsbD j =
      if j < 8 then P.numReaders.testBit j else if j = 8 then P.hpfPresent
      else if j = 9 then P.hpfPresent && decide (P.hpfY0 = .zero) else false := by
  have hreaders : ((BitVec.ofNat 8 P.numReaders).setWidth 64).getLsbD j = (decide (j < 8) && P.numReaders.testBit j) := by
    rw [BitVec.getLsbD_setWidth, BitVec.getLsbD_ofNat]
    by_cases hj : j < 8
    · have hj' : j < 64 := by omega
      simp [hj, hj']
    · simp [hj]
  simp only [featuresWord, BitVec.getLsbD_or, hreaders, getLsbD_flagBit _ (show 8 < 64 by decide),
    getLsbD_flagBit _ (show 9 < 64 by decide)]
  split_ifs with h h8 h9
  · have h8 : j ≠ 8 := by omega
    have h9 : j ≠ 9 := by omega
    simp [h, h8, h9]
  · simp [h8]
  · simp [h9]
  · simp [h, h8, h9]

/-- A frame counts as one (R46). -/
theorem Engine.of_addedFrames {e : Engine} {n : Word64} (h : e.addedFrames = some n) : n = 1 ∧ e.countedFrame := by
  cases e with
  | publish k frame stage =>
    cases stage with
    | countFrame => cases h
    | countBytes | loadW | write | finish =>
      cases h
      exact ⟨rfl, k, frame, _, rfl, nofun⟩
  | _ => cases h

/-- A packet counts with its on-wire length (R47). -/
theorem Engine.of_addedBytes {e : Engine} {n : Word64} (h : e.addedBytes = some n) :
    ∃ wirelen, e.countedBytes wirelen ∧ n = wirelen.setWidth 64 := by
  cases e with
  | publish k frame stage =>
    cases stage with
    | countFrame | countBytes => cases h
    | loadW | write | finish =>
      cases h
      exact ⟨k.wirelen, ⟨k, frame, _, rfl, nofun, nofun, rfl⟩, rfl⟩
  | _ => cases h

theorem State.readFrames_late {s : State} (h : s.framesLate = true) :
    s.framesSeen = false ∧ s.engine.countedFrame ∧ s.readFrames = s.framesReceived - 1 := by
  rcases s.readFrames_cases with ⟨hl, -⟩ | ⟨-, hseen, n, hn, hread⟩
  · rw [h] at hl
    cases hl
  · obtain ⟨rfl, hc⟩ := Engine.of_addedFrames hn
    exact ⟨hseen, hc, hread⟩

theorem State.readFrames_of_not_late {s : State} (h : s.framesLate = false) : s.readFrames = s.framesReceived := by
  simp [State.readFrames, h]

theorem State.readBytes_late {s : State} (h : s.bytesLate = true) :
    s.bytesSeen = false ∧ ∃ n, s.engine.countedBytes n ∧ s.readBytes = s.bytesReceived - n.setWidth 64 := by
  rcases s.readBytes_cases with ⟨hl, -⟩ | ⟨-, hseen, n, hn, hread⟩
  · rw [h] at hl
    cases hl
  · obtain ⟨wirelen, hc, rfl⟩ := Engine.of_addedBytes hn
    exact ⟨hseen, wirelen, hc, hread⟩

theorem State.readBytes_of_not_late {s : State} (h : s.bytesLate = false) : s.readBytes = s.bytesReceived := by
  simp [State.readBytes, h]

/-- A read is late only with an odd choice number, and before another read has seen the packet (R46, log 13). -/
theorem State.framesLate_eq_false {s : State} (h : s.pick % 2 = 0 ∨ s.framesSeen = true) : s.framesLate = false := by
  rcases h with h | h <;> simp [State.framesLate, h]

theorem State.bytesLate_eq_false {s : State} (h : s.pick % 2 = 0 ∨ s.bytesSeen = true) : s.bytesLate = false := by
  rcases h with h | h <;> simp [State.bytesLate, h]

/-- A read misses the packet exactly when it returns another value (R46). -/
theorem State.readFrames_eq_iff (s : State) : s.readFrames = s.framesReceived ↔ s.framesLate = false := by
  refine ⟨fun h => ?_, State.readFrames_of_not_late⟩
  by_contra hl
  obtain ⟨-, -, hread⟩ := State.readFrames_late (by simpa using hl)
  rw [h] at hread
  bv_omega

/-- Every register reads as the rules say (R31 to R60, R83, R95). -/
theorem State.mayRead_readReg (s : State) (r : Reg) : s.mayRead (s.readReg r) r := by
  have hport : ∀ {p : Nat} {f : Port → Word64}, ∀ q, s.ports[p]? = some q → s.portValue p f = f q :=
    fun q hq => State.portValue_of_some hq _
  cases r with
  | id | capacity | maxSpf | maxBins | maxCaplen | ctrl | ctrlStatus | wcount | framesDropped | irqStatus | irqEnable
  | pcmd => rfl
  | features => exact getLsbD_featuresWord s.params
  | cfg f => cases f <;> rfl
  | act f => cases f <;> rfl
  | framesReceived =>
    cases hl : s.framesLate with
    | false => exact .inl (State.readFrames_of_not_late hl)
    | true => exact .inr (State.readFrames_late hl)
  | bytesReceived =>
    cases hl : s.bytesLate with
    | false => exact .inl (State.readBytes_of_not_late hl)
    | true => exact .inr (State.readBytes_late hl)
  | dropReason =>
    change (s.dropReason = none → s.dropReasonWord = 0) ∧
      ∀ r, s.dropReason = some r → s.dropReasonWord = r.code.setWidth 64
    exact ⟨fun h => by simp [State.dropReasonWord, h], fun r h => by simp [State.dropReasonWord, h]⟩
  | pstatus p => exact hport
  | psnap p => exact hport
  | parg p k => cases k <;> exact hport
  | presultSample p => exact hport
  | plastBins p => exact hport
  | series p arr k =>
    intro q hq hc
    have hidle : q.busy = false := by simp [Port.busy, hc]
    refine (State.portValue_of_some hq _).trans ?_
    simp [hidle, State.seriesEntry]

/-- Settles O50: the read is one of the state the step begins in, which differs in its schedule and choice number
only. -/
theorem hostReadsReturnTheRegister : Obligations.HostReadsReturnTheRegister := by
  intro s addr r pick rest _ hr hs
  let u : State := s.begin rest pick s.busResp
  refine ⟨u.answered r, u.readReg r, step_read hr hs, rfl, u.mayRead_readReg r, fun hf => if_neg hf, fun hb => if_neg hb,
    ?_, ?_⟩
  · rintro rfl
    change (u.readFrames = u.framesReceived ↔ (!u.framesLate) = true) ∧
      (u.pick % 2 = 0 ∨ u.framesSeen = true → (!u.framesLate) = true)
    simp only [Bool.not_eq_true']
    exact ⟨u.readFrames_eq_iff, State.framesLate_eq_false⟩
  · rintro rfl
    change ((!u.bytesLate) = true → u.readBytes = u.bytesReceived) ∧
      (u.pick % 2 = 0 ∨ u.bytesSeen = true → (!u.bytesLate) = true) ∧
      ((!u.bytesLate) = false → ∃ n, u.engine.countedBytes n ∧ u.readBytes = u.bytesReceived - n.setWidth 64)
    simp only [Bool.not_eq_true', Bool.not_eq_false']
    exact ⟨State.readBytes_of_not_late, State.bytesLate_eq_false, fun hl => (State.readBytes_late hl).2⟩

end Sys2Proof.Machine
end

section
/-!
The racing reads of the ring (R92, R93), and the two commands that read it: SNAPSHOT (R243) and GET_SAMPLE (R244).
-/
namespace Sys2Proof.Machine

/-! ### The values a word held -/

theorem State.heldValues_of_not_overwritten {s : State} {q : Port} {a : Nat} (h : ∀ e ∈ q.past, e.1 ≠ a) :
    s.heldValues q a = [s.ring.read a] := by
  have hnone : q.past.filter (fun e => e.1 == a) = [] := List.filter_eq_nil_iff.2 fun e he => by simpa using h e he
  rw [State.heldValues, hnone]
  rfl

theorem State.ring_read_ringWrite (s : State) (a b : Nat) (v : Word16) :
    (s.ringWrite a v).ring.read b = if b = a then some v else s.ring.read b := by
  rw [State.ringWrite_ring]
  split_ifs with hb
  · rw [hb, Memory.read_write_same]
  · exact Memory.read_write_other _ _ _ _ hb

theorem State.ports_ringWrite {s : State} {p a : Nat} {v : Word16} {q : Port} (hq : s.ports[p]? = some q) :
    (s.ringWrite a v).ports[p]? = some { q with past := (a, s.ring.read a) :: q.past } := by
  simp [hq]

/-- A RingWrite puts its value in front of those its word held (R92). -/
theorem State.heldValues_ringWrite (s : State) (q : Port) (a b : Nat) (v : Word16) :
    (s.ringWrite a v).heldValues { q with past := (a, s.ring.read a) :: q.past } b =
      if b = a then some v :: s.heldValues q a else s.heldValues q b := by
  rw [State.heldValues, s.ring_read_ringWrite]
  by_cases hb : b = a
  · simp [hb, State.heldValues]
  · simp [hb, Ne.symm hb, State.heldValues]

/-! ### The value a read returns -/

/-- A choice number below the number of values held is the choice made (R92). -/
theorem State.ringChoice_of_lt {s : State} {q : Port} {a : Nat} (h : s.pick < (s.heldValues q a).length) :
    s.ringChoice q a = s.pick :=
  if_pos h

theorem State.ringChosen_eq_getElem (s : State) (q : Port) (a : Nat) :
    s.ringChosen q a = (s.heldValues q a)[s.ringChoice q a]'(s.ringChoice_lt q a) := by
  rw [State.ringChosen, List.getElem?_eq_getElem (s.ringChoice_lt q a)]
  rfl

theorem State.ringChosen_mem (s : State) (q : Port) (a : Nat) : s.ringChosen q a ∈ s.heldValues q a :=
  s.ringChosen_eq_getElem q a ▸ List.getElem_mem _

/-- The value chosen is the value read, and draws nothing (R92, log 8). -/
theorem State.ringValue_of_chosen {s : State} {q : Port} {a : Nat} {v : Word16} (h : s.ringChosen q a = some v) :
    s.ringValue q a = v ∧ s.ringDraws q a = 0 := by
  simp [State.ringValue, State.ringDraws, h]

/-- A word with no overwrite on record is read as the ring holds it, whatever the choice number (R94). -/
theorem State.ringChosen_of_not_overwritten {s : State} {q : Port} {a : Nat} (h : ∀ e ∈ q.past, e.1 ≠ a) :
    s.ringChosen q a = s.ring.read a := by
  have hmem := s.ringChosen_mem q a
  rwa [State.heldValues_of_not_overwritten h, List.mem_singleton] at hmem

/-! ### What a read forgets -/

/-- Of the word read, the `n` newest overwritten values stay (R93). -/
theorem filter_keepNewer_same (a n : Nat) (es : List (Nat × Option Word16)) :
    (keepNewer a n es).filter (fun e => e.1 == a) = (es.filter (fun e => e.1 == a)).take n := by
  induction es generalizing n with
  | nil => simp [keepNewer]
  | cons e es ih =>
    by_cases he : e.1 = a
    · cases n with
      | zero => simpa [keepNewer, he] using ih 0
      | succ n => simp [keepNewer, he, ih n]
    · simp [keepNewer, he, ih n]

theorem filter_keepNewer_other {a b : Nat} (hb : b ≠ a) (n : Nat) (es : List (Nat × Option Word16)) :
    (keepNewer a n es).filter (fun e => e.1 == b) = es.filter (fun e => e.1 == b) := by
  induction es generalizing n with
  | nil => simp [keepNewer]
  | cons e es ih =>
    by_cases he : e.1 = a
    · cases n with
      | zero => simp [keepNewer, he, hb.symm, ih 0]
      | succ n => simp [keepNewer, he, hb.symm, ih n]
    · simp [keepNewer, he, List.filter_cons, ih n]

theorem keepNewer_of_absent {a : Nat} {es : List (Nat × Option Word16)} (h : ∀ e ∈ es, e.1 ≠ a) (n : Nat) :
    keepNewer a n es = es := by
  induction es with
  | nil => rfl
  | cons e es ih =>
    obtain ⟨he, hes⟩ := List.forall_mem_cons.1 h
    simp [keepNewer, he, ih hes]

/-- Settles O20. -/
theorem secondReadOfAWordIsNoOlder : Obligations.SecondReadOfAWordIsNoOlder := by
  refine fun s q a => ⟨?_, fun b hb => ?_⟩
  · simp only [State.heldValues, State.afterRingRead, filter_keepNewer_same, List.map_take, List.take_succ_cons]
  · simp only [State.heldValues, State.afterRingRead, filter_keepNewer_other hb]

/-! ### SNAPSHOT -/

theorem exec_snapshot_running {p : Nat} {s : State} {q : Port} {c : Command} (hq : s.ports[p]? = some q)
    (hc : q.cmd = some c) (hop : c.op = 0x01) (harr : c.arr = 0) :
    exec (.snapshot p) s = .next (s.setPort p { q.complete with snap := s.wcount, past := [] }) :=
  portCommand_running hq hc hop harr

/-- Settles O16. -/
theorem snapshotTakesTheWriteCounter : Obligations.SnapshotTakesTheWriteCounter :=
  fun _ _ _ _ hq hc hop harr => exec_snapshot_running hq hc hop harr

/-- Settles O19. -/
theorem racingReadReturnsAnyValueHeldSinceTheSnapshot : Obligations.RacingReadReturnsAnyValueHeldSinceTheSnapshot := by
  refine ⟨fun p a s t q q' c hq hc hop harr h hq' => ?_, fun s p a b v q q' hq hq' => ?_, fun s q a n v h => ?_,
    fun s q a h => ?_⟩
  · rw [exec_snapshot_running hq hc hop harr] at h
    cases h
    cases (State.port?_setPort_same hq).symm.trans hq'
    exact State.heldValues_of_not_overwritten (fun _ he => nomatch he)
  · cases (State.ports_ringWrite hq).symm.trans hq'
    exact s.heldValues_ringWrite q a b v
  · obtain ⟨hn, hv⟩ := List.getElem?_eq_some_iff.1 h
    refine (State.ringValue_of_chosen ?_).1
    rw [State.ringChosen, State.ringChoice_of_lt hn]
    exact congrArg Option.join h
  · obtain ⟨v, hv⟩ := Option.ne_none_iff_exists'.1 (h _ (s.ringChosen_mem q a))
    rw [(State.ringValue_of_chosen hv).1, ← hv]
    exact s.ringChosen_mem q a

/-! ### GET_SAMPLE -/

theorem exec_getSample_running {p : Nat} {s : State} {q : Port} {c : Command} (hq : s.ports[p]? = some q)
    (hc : q.cmd = some c) (hop : c.op = 0x02) (harr : c.arr = 0) :
    exec (.getSample p) s = .next (getSampleStep p s q c) :=
  portCommand_running hq hc hop harr

theorem getSampleStep_errIndex {p : Nat} {s : State} {q : Port} {c : Command}
    (hi : validIndex s.params.capacity q.snap.toNat c.a0.toNat = false) :
    getSampleStep p s q c = s.setPort p (q.fail .errIndex) :=
  if_pos (by simpa [operandU64] using hi)

theorem getSampleStep_errChannel {p : Nat} {s : State} {q : Port} {c : Command}
    (hi : validIndex s.params.capacity q.snap.toNat c.a0.toNat = true) (hch : s.active.spf.toNat ≤ c.a1.toNat) :
    getSampleStep p s q c = s.setPort p (q.fail .errChannel) :=
  (if_neg (by simpa [operandU64] using hi)).trans (if_pos hch)

theorem getSampleStep_read {p : Nat} {s : State} {q : Port} {c : Command}
    (hi : validIndex s.params.capacity q.snap.toNat c.a0.toNat = true) (hch : c.a1.toNat < s.active.spf.toNat) :
    let a := s.ringAddr c.a0.toNat c.a1.toNat
    getSampleStep p s q c = { s with draws := s.draws + s.ringDraws q a }.setPort p
      { (s.afterRingRead q a).complete with sample := (s.ringValue q a).setWidth 64 } :=
  (if_neg (by simpa [operandU64] using hi)).trans (if_neg (Nat.not_le_of_lt hch))

/-- Settles O17. -/
theorem getSampleChecksThenReadsOneWord : Obligations.GetSampleChecksThenReadsOneWord := by
  intro p s q c hq hc hop harr i ch snap a
  rw [exec_getSample_running hq hc hop harr]
  refine ⟨fun hi => ?_, fun hi hC hch => ?_, fun hi hC hch => ?_⟩
  · exact congrArg Host.Outcome.next (getSampleStep_errIndex (decide_eq_false hi))
  · exact congrArg Host.Outcome.next (getSampleStep_errChannel (decide_eq_true ⟨hi, hC⟩) hch)
  · exact congrArg Host.Outcome.next (getSampleStep_read (decide_eq_true ⟨hi, hC⟩) hch)

/-- Settles O18: the read of O17, of a word with no overwrite on record. -/
theorem getSampleIsExactWithoutAWriter : Obligations.GetSampleIsExactWithoutAWriter := by
  intro p s q c v hq hc hop harr hi hC hch hv hpast
  obtain ⟨-, -, hread⟩ := getSampleChecksThenReadsOneWord p s q c hq hc hop harr
  obtain ⟨hvalue, hdraws⟩ := State.ringValue_of_chosen ((State.ringChosen_of_not_overwritten hpast).trans hv)
  rw [hread hi hC hch, hvalue, hdraws, State.afterRingRead, keepNewer_of_absent hpast]
  rfl

end Sys2Proof.Machine
end

section
/-!
The append of a frame (R240, R241), and what a scheduled step amounts to: the instruction its bytes decode to, a
discarded word, or an access that changes nothing of the CORE (R97, R102, R117, R246, R306, R307).
-/
namespace Sys2Proof.Machine

/-! ### The append -/

/-- The packet instruction of a packet in PUBLISH is the next step of PUBLISH (R209, log 7). -/
theorem exec_ingressPacket_publish {s : State} {k : Packet} {frame : List Word16} {stage : PubStage}
    (he : s.engine = .publish k frame stage) :
    exec (.ingressPacket k.tag k.caplen k.wirelen k.data) s = publishStep s k frame stage := by
  have hk : s.engine.packet? = some k := by rw [he]; rfl
  refine (execIngressPacket_held hk).trans ?_
  unfold engineStep
  rw [he]

/-- Settles O41. -/
theorem appendWritesThenPublishes : Obligations.AppendWritesThenPublishes := by
  intro k frame w ch s he
  rw [exec_ingressPacket_publish he]
  refine ⟨fun hch => ⟨_, if_pos hch, rfl, rfl, rfl, fun a => ?_⟩, fun hch => if_neg (Nat.not_lt_of_le hch)⟩
  exact s.ring_read_ringWrite (s.ringAddr w.toNat ch) a (frame.getD ch 0)

/-! ### Command words -/

theorem fetchCtrl_decoded {s : State} {w : Word64} {i : Instr} (hd : decode .ctrl (bytesLE 8 w.toNat) = .ok i) :
    fetchCtrl s w = .run i { s with busResp := .data 0 } := by
  simp [fetchCtrl, hd]

theorem fetchPcmd_idle {s : State} {p : Nat} {q : Port} {w : Word64} {i : Instr} (hq : s.port? p = some q)
    (hc : q.cmd = none) (hd : decode (.port p) (bytesLE 8 w.toNat) = .ok i) :
    fetchPcmd s p w = .run i { s with busResp := .data 0 } := by
  simp [fetchPcmd, hq, hd, Port.busy, hc]

/-- The word written to a busy port is discarded (R307). -/
theorem fetchPcmd_busy {s : State} {p : Nat} {q : Port} (hq : s.port? p = some q) (hc : q.cmd ≠ none) (w : Word64) :
    fetchPcmd s p w = .done ({ s with busResp := .data 0 }.setPort p q.noteOverrun) := by
  have hbusy : q.busy = true := Option.isSome_iff_ne_none.2 hc
  simp [fetchPcmd, hq, hbusy]

/-- A scheduled write to PCMD(p) hands the port its word (R97, R112). -/
theorem step_pcmd {s : State} {p pick : Nat} {w : Word64} {rest : List Action} (hp : p < s.params.numReaders)
    (hp' : p < 255) (hs : s.schedule = .host (.write (BitVec.ofNat 32 (portBase p)) 8 w) pick :: rest) :
    step s = (fetchPcmd (s.begin rest pick s.busResp) p w).outcome := by
  rw [step_of_schedule hs]
  change (fetchWrite (s.begin rest pick s.busResp) _ 8 w).outcome = _
  unfold fetchWrite
  rw [accessReg_pcmd (P := (s.begin rest pick s.busResp).params) hp hp']

/-- Settles O13. -/
theorem busyPortDiscardsTheWordWithOverrun : Obligations.BusyPortDiscardsTheWordWithOverrun := by
  intro s p pick q w rest hp hp' hq hc hs
  exact (step_pcmd hp hp' hs).trans
    (congrArg Fetched.outcome (fetchPcmd_busy (s := s.begin rest pick s.busResp) hq hc w))

/-! ### Steps that run an instruction -/

theorem fetchOffer_accepted {s : State} {bytes : List Byte} {i : Instr} (hd : decode .ingress bytes = .ok i)
    (ha : s.accepts = true) : fetchOffer s bytes = .run i s := by
  simp [fetchOffer, hd, ha]

theorem fetchEngine_held {s : State} {k : Packet} (hk : s.engine.packet? = some k) :
    fetchEngine s = .run k.instr s := by
  simp [fetchEngine, hk]

theorem fetchPort_running {s : State} {p : Nat} {q : Port} {c : Command} {i : Instr} (hq : s.port? p = some q)
    (hc : q.cmd = some c) (hd : decode (.port p) (bytesLE 8 (portWord c.op.toNat c.arr.toNat)) = .ok i) :
    fetchPort s p = .run i s := by
  simp [fetchPort, hq, hc, hd]

/-- The engine takes an event in RECEIVE with no stop pending, or under GRACE (R200, R201). -/
theorem State.accepts_iff {s : State} :
    s.accepts = true ↔ s.engine = .receive ∧ (s.stopPending = false ∨ s.grace = true) := by
  rw [State.accepts, Bool.and_eq_true, Bool.or_eq_true, Bool.not_eq_true', State.receiving_iff]

/-- A step that fetches an instruction runs it. -/
theorem step_of_fetch_run {s u : State} {a : Action} {rest : List Action} {i : Instr} (hs : s.schedule = a :: rest)
    (hf : fetch a { s with schedule := rest } = .run i u) : step s = exec i u :=
  (step_of_schedule hs).trans (congrArg Fetched.outcome hf)

/-- Settles O48. -/
theorem stepRunsTheDecodedInstruction : Obligations.StepRunsTheDecodedInstruction := by
  refine fun s rest => ⟨fun w pick i hs hd => ?_, fun p q w pick i hp hp' hq hc hs hd => ?_,
    fun bytes i hs hd he hstop => ?_, fun k hs hk => ?_, fun p pick q c i hs hq hc hd => ?_⟩
  · exact step_of_fetch_run hs (fetchCtrl_decoded (s := s.begin rest pick s.busResp) hd)
  · exact (step_pcmd hp hp' hs).trans
      (congrArg Fetched.outcome (fetchPcmd_idle (s := s.begin rest pick s.busResp) hq hc hd))
  · exact step_of_fetch_run hs (fetchOffer_accepted hd (State.accepts_iff.2 ⟨he, hstop⟩))
  · exact step_of_fetch_run hs (fetchEngine_held hk)
  · exact step_of_fetch_run hs (fetchPort_running hq hc hd)

/-! ### Accesses that change nothing -/

/-- A read leaves its response, and the model's own record of it (R102, logs 10, 13). -/
theorem State.hostRead_eq (s : State) (addr : Word32) (size : Nat) :
    ∃ d f b resp, s.hostRead addr size = { s with draws := d, framesSeen := f, bytesSeen := b, busResp := resp } := by
  rcases s.hostRead_cases addr size with ⟨-, h⟩ | ⟨r, -, h⟩
  · exact ⟨s.draws, s.framesSeen, s.bytesSeen, .busError, h⟩
  · exact ⟨_, _, _, _, h⟩

/-- A bad access reaches no register (R82, R306). -/
theorem accessReg_eq_none {P : Params} {addr : Word32} {size : Nat}
    (h : size ≠ 8 ∨ addr.toNat % 8 ≠ 0 ∨ regAt P addr.toNat = none) : accessReg P addr size = none := by
  unfold accessReg
  rcases h with hsize | hmis | hnone
  · exact if_neg hsize
  · have hreg : regAt P addr.toNat = none := if_pos hmis
    rw [hreg, ite_self]
  · rw [hnone, ite_self]

theorem fetchWrite_unmapped {s : State} {addr : Word32} {size : Nat} (h : accessReg s.params addr size = none)
    (v : Word64) : fetchWrite s addr size v = .done s.busError := by
  simp [fetchWrite, h]

theorem State.hostRead_unmapped {s : State} {addr : Word32} {size : Nat} (h : accessReg s.params addr size = none) :
    s.hostRead addr size = s.busError := by
  simp [State.hostRead, h]

/-- A write to a read-only register is answered and ignored (R112). -/
theorem State.hostStore_readOnly {r : Reg} (hro : r.readOnly = true) (s : State) (v : Word64) :
    s.hostStore r v = { s with busResp := .data 0 } := by
  cases r with
  | ctrl | cfg | irqStatus | irqEnable | pcmd | parg | series => cases hro
  | _ => rfl

/-- Settles O49. -/
theorem readsAndBadAccessesChangeNothing : Obligations.ReadsAndBadAccessesChangeNothing := by
  refine ⟨fun s addr size pick rest hs => ?_, fun s addr size pick v rest hbad hs => ?_,
    fun s addr r pick v rest hr hro hs => ?_⟩
  · obtain ⟨d, f, b, resp, hread⟩ := (s.begin rest pick s.busResp).hostRead_eq addr size
    exact ⟨d, f, b, resp, (step_of_schedule hs).trans (congrArg Host.Outcome.next hread)⟩
  · have hnone : accessReg (s.begin rest pick s.busResp).params addr size = none := accessReg_eq_none hbad
    rcases hs with hs | hs
    · exact (step_of_schedule hs).trans (congrArg Fetched.outcome (fetchWrite_unmapped hnone v))
    · exact (step_of_schedule hs).trans (congrArg Host.Outcome.next (State.hostRead_unmapped hnone))
  · have hctrl : r ≠ .ctrl := by
      rintro rfl
      cases hro
    have hpcmd : ∀ p, r ≠ .pcmd p := by
      rintro p rfl
      cases hro
    rw [step_write hr hctrl hpcmd hs, State.hostStore_readOnly hro]
    rfl

end Sys2Proof.Machine
end

section
/-!
Decoding against encoding (R110, R114, R115, R117, R120 to R123): the number a command word stands for, the two opcode
maps as an equivalence with it, and the fields of an ingress header.
-/
namespace Sys2Proof

/-! ### Bytes of a command word -/

/-- Bytes are those of the number they stand for (R84). -/
theorem bytesLE_natLE (bs : List Byte) : bytesLE bs.length (natLE bs) = bs := by
  induction bs with
  | nil => rfl
  | cons b bs ih =>
    have hlow : BitVec.ofNat 8 (b.toNat + 256 * natLE bs) = b :=
      BitVec.eq_of_toNat_eq (by rw [BitVec.toNat_ofNat]; omega)
    have hhigh : (b.toNat + 256 * natLE bs) / 256 = natLE bs := by omega
    rw [List.length_cons, natLE, bytesLE, hlow, hhigh, ih]

theorem natLE_bytesLE_of_lt {len n : Nat} (h : n < 256 ^ len) : natLE (bytesLE len n) = n :=
  (natLE_bytesLE len n).trans (Nat.mod_eq_of_lt h)

theorem decode_ctrl_eq {bs : List Byte} (h : bs.length = 8) : decode .ctrl bs = decodeCtrl (natLE bs) :=
  if_neg (not_not_intro h)

theorem decode_port_eq {bs : List Byte} (h : bs.length = 8) (p : Nat) :
    decode (.port p) bs = decodePort p (natLE bs) :=
  if_neg (not_not_intro h)

/-- A command register access is 8 bytes (R82). -/
theorem length_of_decode_ok {sp : Space} {bs : List Byte} {i : Instr} (hsp : sp ≠ .ingress)
    (h : decode sp bs = .ok i) : bs.length = 8 := by
  by_contra hlen
  cases sp with
  | ctrl => cases (if_pos hlen).symm.trans h
  | port p => cases (if_pos hlen).symm.trans h
  | ingress => exact hsp rfl

theorem decode_ctrl_word (w : Word64) : decode .ctrl (bytesLE 8 w.toNat) = decodeCtrl w.toNat := by
  rw [decode_ctrl_eq (Laws.bytesLE_length _ _), natLE_bytesLE_word]

theorem decode_port_word (p : Nat) (w : Word64) : decode (.port p) (bytesLE 8 w.toNat) = decodePort p w.toNat := by
  rw [decode_port_eq (Laws.bytesLE_length _ _), natLE_bytesLE_word]

theorem toOption_eq_some_iff {e : Except DecodeError Instr} {i : Instr} : e.toOption = some i ↔ e = .ok i := by
  cases e <;> simp [Except.toOption]

/-! ### The opcode maps -/

theorem SeriesArr.code_lt (arr : SeriesArr) : arr.code < 4 := by cases arr <;> decide

theorem SeriesArr.ofCode_code (arr : SeriesArr) : SeriesArr.ofCode arr.code = arr := by cases arr <;> rfl

theorem SeriesArr.code_ofCode {n : Nat} (h : n < 4) : (SeriesArr.ofCode n).code = n := by
  interval_cases n <;> rfl

/-- The number of the word an instruction of the CTRL space or of a port's space is written as (R114, R115); 0 for an
ingress event, which has none. -/
def Instr.commandWord : Instr → Nat
  | .start => 0x01
  | .stop => 0x02
  | .cfgCommit => 0x03
  | .snapshot _ => portWord 0x01 0
  | .getSample _ => portWord 0x02 0
  | .envelope _ => portWord 0x03 0
  | .ema _ arr => portWord 0x10 arr.code
  | .sma _ arr => portWord 0x11 arr.code
  | .hpf _ arr => portWord 0x12 arr.code
  | .ingressPacket _ _ _ _ => 0
  | .ingressTimeout => 0
  | .ingressSrcError => 0
  | .ingressKind3 => 0

theorem encode_eq_commandWord {i : Instr} (h : i.space ≠ .ingress) : encode i = bytesLE 8 i.commandWord := by
  cases i with
  | ingressPacket | ingressTimeout | ingressSrcError | ingressKind3 => exact absurd rfl h
  | _ => rfl

theorem Instr.commandWord_lt (i : Instr) : i.commandWord < 256 ^ 8 := by
  cases i with
  | ema _ arr | sma _ arr | hpf _ arr =>
    have := arr.code_lt
    simp only [commandWord, portWord]
    omega
  | _ => simp [commandWord, portWord]

theorem natLE_encode {i : Instr} (h : i.space ≠ .ingress) : natLE (encode i) = i.commandWord := by
  rw [encode_eq_commandWord h, natLE_bytesLE_of_lt i.commandWord_lt]

theorem length_encode {i : Instr} (h : i.space ≠ .ingress) : (encode i).length = 8 := by
  rw [encode_eq_commandWord h, Laws.bytesLE_length]

/-- R121: the CTRL opcode map. -/
theorem decodeCtrl_toOption (n : Nat) : (decodeCtrl n).toOption =
    if n = 1 then some .start else if n = 2 then some .stop else if n = 3 then some .cfgCommit else none := by
  unfold decodeCtrl
  by_cases hres : n / 2 ^ 8 ≠ 0
  · rw [if_pos hres, if_neg (by omega), if_neg (by omega), if_neg (by omega)]
    rfl
  · rw [if_neg hres]
    split_ifs <;> rfl

/-- R122: the port opcode map. An opcode that uses no ARR is the whole word (R115). -/
theorem decodePort_toOption (p n : Nat) : (decodePort p n).toOption =
    if n / 2 ^ 10 ≠ 0 then none
    else if n % 2 ^ 8 = 0x10 then some (.ema p (SeriesArr.ofCode (n / 2 ^ 8 % 4)))
    else if n % 2 ^ 8 = 0x11 then some (.sma p (SeriesArr.ofCode (n / 2 ^ 8 % 4)))
    else if n % 2 ^ 8 = 0x12 then some (.hpf p (SeriesArr.ofCode (n / 2 ^ 8 % 4)))
    else if n = 1 then some (.snapshot p)
    else if n = 2 then some (.getSample p)
    else if n = 3 then some (.envelope p)
    else none := by
  unfold decodePort decodePortArr
  by_cases hres : n / 2 ^ 10 ≠ 0
  · rw [if_pos hres, if_pos hres]
    rfl
  rw [if_neg hres, if_neg hres]
  by_cases hema : n % 2 ^ 8 = 0x10
  · simp only [if_pos hema]
    rfl
  by_cases hsma : n % 2 ^ 8 = 0x11
  · simp only [if_neg hema, if_pos hsma]
    rfl
  by_cases hhpf : n % 2 ^ 8 = 0x12
  · simp only [if_neg hema, if_neg hsma, if_pos hhpf]
    rfl
  simp only [if_neg hema, if_neg hsma, if_neg hhpf]
  by_cases harr : n / 2 ^ 8 % 4 ≠ 0
  · rw [if_neg (show n ≠ 1 by omega), if_neg (show n ≠ 2 by omega), if_neg (show n ≠ 3 by omega)]
    simp only [if_pos harr]
    split <;> rfl
  · have hop : n % 2 ^ 8 = n := by omega
    simp only [if_neg harr, hop, decodePortPlain]
    split_ifs <;> rfl

/-- A number is a CTRL word of exactly the instruction whose word it is. -/
theorem decodeCtrl_eq_ok_iff {n : Nat} {i : Instr} : decodeCtrl n = .ok i ↔ i.space = .ctrl ∧ n = i.commandWord := by
  constructor
  · intro h
    rw [← toOption_eq_some_iff, decodeCtrl_toOption] at h
    split_ifs at h <;> cases h <;> exact ⟨rfl, ‹_›⟩
  · rintro ⟨hsp, rfl⟩
    cases i with
    | start | stop | cfgCommit => rfl
    | _ => cases hsp

/-- A number is a word of port `p` of exactly the command of that port whose word it is. -/
theorem decodePort_eq_ok_iff {p n : Nat} {i : Instr} :
    decodePort p n = .ok i ↔ i.space = .port p ∧ n = i.commandWord := by
  constructor
  · intro h
    have harr := SeriesArr.code_ofCode (Nat.mod_lt (n / 2 ^ 8) (show 4 > 0 by decide))
    rw [← toOption_eq_some_iff, decodePort_toOption] at h
    split_ifs at h <;> cases h <;> refine ⟨rfl, ?_⟩ <;> simp only [Instr.commandWord, portWord, harr] <;> omega
  · rintro ⟨hsp, rfl⟩
    rw [← toOption_eq_some_iff, decodePort_toOption]
    cases i with
    | snapshot | getSample | envelope =>
      cases hsp
      simp [Instr.commandWord, portWord]
    | ema _ arr | sma _ arr | hpf _ arr =>
      cases hsp
      cases arr <;> simp [Instr.commandWord, portWord, SeriesArr.code, SeriesArr.ofCode]
    | _ => cases hsp

/-! ### Ingress transactions -/

/-- A header whose fields fit takes 82 bits (R117, log 6). -/
theorem ingressHeader_lt {kind tag caplen wirelen : Nat} (hkind : kind < 4) (htag : tag < 2 ^ 16)
    (hcap : caplen < 2 ^ 32) (hwire : wirelen < 2 ^ 32) :
    ingressHeader kind tag caplen wirelen < 256 ^ ingressHeaderBytes := by
  simp only [ingressHeader, ingressHeaderBytes]
  omega

/-- The fields of a header, read back (R117, log 6). -/
theorem ingressHeader_fields {kind tag caplen wirelen : Nat} (hkind : kind < 4) (htag : tag < 2 ^ 16)
    (hcap : caplen < 2 ^ 32) (hwire : wirelen < 2 ^ 32) :
    ingressHeader kind tag caplen wirelen % 4 = kind ∧
    ingressHeader kind tag caplen wirelen / 2 ^ 2 % 2 ^ 16 = tag ∧
    ingressHeader kind tag caplen wirelen / 2 ^ 18 % 2 ^ 32 = caplen ∧
    ingressHeader kind tag caplen wirelen / 2 ^ 50 % 2 ^ 32 = wirelen := by
  simp only [ingressHeader]
  omega

/-- A PACKET header followed by CAPLEN bytes is that packet (R117). -/
theorem decode_ingress_packet (tag : Word16) (caplen wirelen : Word32) (data : List Byte)
    (hdata : data.length = caplen.toNat) :
    decode .ingress (encode (.ingressPacket tag caplen wirelen data)) =
      .ok (.ingressPacket tag caplen wirelen data) := by
  have hlt := ingressHeader_lt (show 0 < 4 by decide) tag.isLt caplen.isLt wirelen.isLt
  obtain ⟨hkind, htag, hcap, hwire⟩ := ingressHeader_fields (show 0 < 4 by decide) tag.isLt caplen.isLt wirelen.isLt
  generalize hn : ingressHeader 0 tag.toNat caplen.toNat wirelen.toNat = n at *
  have hlen := Laws.bytesLE_length ingressHeaderBytes n
  have hshort : ¬ (bytesLE ingressHeaderBytes n ++ data).length < ingressHeaderBytes := by
    rw [List.length_append]
    omega
  rw [encode, hn, decode, decodeIngress, if_neg hshort, List.take_left' hlen, List.drop_left' hlen]
  dsimp only
  rw [natLE_bytesLE_of_lt hlt, if_pos hkind, if_pos (hdata.trans hcap.symm)]
  have htag' : BitVec.ofNat 16 (n / 2 ^ 2) = tag := BitVec.eq_of_toNat_eq (by rw [BitVec.toNat_ofNat, htag])
  have hcap' : BitVec.ofNat 32 (n / 2 ^ 18) = caplen := BitVec.eq_of_toNat_eq (by rw [BitVec.toNat_ofNat, hcap])
  have hwire' : BitVec.ofNat 32 (n / 2 ^ 50) = wirelen := BitVec.eq_of_toNat_eq (by rw [BitVec.toNat_ofNat, hwire])
  rw [htag', hcap', hwire']

/-! ### The statements -/

/-- Settles O1: a command word through the equivalences of the two opcode maps, an ingress event through its header. -/
theorem decodeOfEncodeIsTheInstruction : Obligations.DecodeOfEncodeIsTheInstruction := by
  intro i hwf
  cases hsp : i.space with
  | ctrl =>
    have hne : i.space ≠ .ingress := by simp [hsp]
    rw [decode_ctrl_eq (length_encode hne), natLE_encode hne]
    exact decodeCtrl_eq_ok_iff.2 ⟨hsp, rfl⟩
  | port p =>
    have hne : i.space ≠ .ingress := by simp [hsp]
    rw [decode_port_eq (length_encode hne), natLE_encode hne]
    exact decodePort_eq_ok_iff.2 ⟨hsp, rfl⟩
  | ingress =>
    cases i with
    | ingressPacket tag caplen wirelen data =>
      exact decode_ingress_packet tag caplen wirelen data (of_decide_eq_true hwf)
    | ingressTimeout | ingressSrcError | ingressKind3 => rfl
    | _ => cases hsp

/-- Settles O2, through the equivalences of the two opcode maps. -/
theorem commandWordsHaveOneSpelling : Obligations.CommandWordsHaveOneSpelling := by
  intro sp bs i hsp h
  have hlen := length_of_decode_ok hsp h
  have hword : i.space = sp ∧ natLE bs = i.commandWord := by
    cases sp with
    | ctrl => exact decodeCtrl_eq_ok_iff.1 ((decode_ctrl_eq hlen).symm.trans h)
    | port p => exact decodePort_eq_ok_iff.1 ((decode_port_eq hlen p).symm.trans h)
    | ingress => exact absurd rfl hsp
  obtain ⟨rfl, hn⟩ := hword
  refine ⟨rfl, ?_⟩
  rw [encode_eq_commandWord hsp, ← hn, ← hlen, bytesLE_natLE]

/-- Settles O3: equal words are equal numbers. -/
theorem ctrlOpcodeMap : Obligations.CtrlOpcodeMap := by
  intro w
  rw [decode_ctrl_word, decodeCtrl_toOption]
  simp only [BitVec.toNat_eq, BitVec.reduceToNat]

/-- The field of two bits of a word that selects the array (R120). -/
theorem ofCode_toNat (c : BitVec 2) : SeriesArr.ofCode c.toNat =
    if c = 0 then .x else if c = 1 then .ymin else if c = 2 then .ymax else .mean := by
  revert c
  decide

/-- Settles O4: the bit fields of the word are the quotients and remainders of its number. -/
theorem portOpcodeMap : Obligations.PortOpcodeMap := by
  intro p w
  have harr : ((w >>> 8).setWidth 2).toNat = w.toNat / 2 ^ 8 % 4 := by
    rw [BitVec.toNat_setWidth, BitVec.toNat_ushiftRight, Nat.shiftRight_eq_div_pow]
  have hop : (w.setWidth 8).toNat = w.toNat % 2 ^ 8 := BitVec.toNat_setWidth 8 w
  have hres : (w >>> 10).toNat = w.toNat / 2 ^ 10 := by
    rw [BitVec.toNat_ushiftRight, Nat.shiftRight_eq_div_pow]
  dsimp only
  rw [decode_port_word, decodePort_toOption, ← ofCode_toNat, harr]
  simp only [ne_eq, BitVec.toNat_eq, hop, hres, BitVec.reduceToNat]

/-- Settles O5: each of the words is the encoding of its instruction. -/
theorem writtenOutWordsDecode : Obligations.WrittenOutWordsDecode :=
  ⟨decodeOfEncodeIsTheInstruction .cfgCommit rfl, decodeOfEncodeIsTheInstruction (.getSample 1) rfl,
    decodeOfEncodeIsTheInstruction (.ema 0 .mean) rfl, decodeOfEncodeIsTheInstruction .ingressSrcError rfl⟩

end Sys2Proof
end

section
/-!
The register map both ways (R111 to R113), and a command word that is no command (R114, R115, R123, R305).
-/
namespace Sys2Proof.Machine

/-! ### The register map -/

/-- The control block lists every register at its address (R112). -/
theorem regAddress_controlMap (P : Params) : ∀ e ∈ controlMap, regAddress P e.2 = some e.1 := by
  simp [controlMap, regAddress, cfgOffset]

/-- A port block lists the registers of an existing port at their addresses (R112). -/
theorem regAddress_portMap {P : Params} {p : Nat} (hp : p < P.numReaders) :
    ∀ e ∈ portMap p, regAddress P e.2 = some (portBase p + e.1) := by
  simp [portMap, regAddress, portBase, hp]

/-- An address in a port's series window is that of one entry of one array (R113). -/
theorem regAddress_series {P : Params} {p off : Nat} (hp : p < P.numReaders) (hoff : off < 0x100000) (h8 : off % 8 = 0)
    (hk : off % 0x40000 / 8 < P.maxBins) :
    regAddress P (.series p (SeriesArr.ofCode (off / 0x40000)) (off % 0x40000 / 8)) = some (seriesBase p + off) := by
  have hcode : (SeriesArr.ofCode (off / 0x40000)).code = off / 0x40000 := SeriesArr.code_ofCode (by omega)
  rw [regAddress, if_pos ⟨hp, hk⟩, hcode, seriesBase]
  congr 1
  omega

theorem regAddress_of_regAt {P : Params} {a : Nat} {r : Reg} (h : regAt P a = some r) : regAddress P r = some a := by
  obtain ⟨h8, ⟨-, hm⟩ | ⟨p, off, rfl, -, -, -, hp, hm⟩ | ⟨p, off, rfl, hoff, hp, hk, rfl⟩⟩ := regAt_cases h
  · exact regAddress_controlMap P _ hm
  · exact regAddress_portMap hp _ hm
  · exact regAddress_series hp hoff (by unfold seriesBase at h8; omega) hk

theorem regAt_control (P : Params) {off : Nat} (h : off < 0x1000) (h8 : off % 8 = 0) :
    regAt P off = controlReg off := by
  rw [regAt, if_neg (not_not_intro h8), if_pos h]

/-- The registers of an existing port are reached at their places in its block (R112): NUM_READERS is at most 255 (R7),
so the block lies below the series windows. -/
theorem regAt_port {P : Params} {p off a : Nat} {r : Reg} (hreaders : P.numReaders ≤ 255)
    (h : (if p < P.numReaders then some (0x1000 + 0x100 * p + off) else none) = some a) (hr : portReg p off = some r)
    (hoff : off < 0x100) (h8 : off % 8 = 0) : regAt P a = some r := by
  obtain ⟨hp, ha⟩ := Option.ite_none_right_eq_some.1 h
  obtain rfl := Option.some.inj ha
  have hblock : (0x1000 + 0x100 * p + off - 0x1000) / 0x100 = p := by omega
  have hin : (0x1000 + 0x100 * p + off - 0x1000) % 0x100 = off := by omega
  rw [regAt, if_neg (by omega), if_neg (by omega), if_pos (by omega)]
  dsimp only
  rw [hblock, hin, if_pos hp, hr]

/-- The entries of the four arrays do not overlap (R113): MAX_BINS is at most 32768 (R7). -/
theorem regAt_seriesEntry {P : Params} {p k : Nat} (hp : p < P.numReaders) (hk : k < P.maxBins) (hk' : k < 32768)
    (arr : SeriesArr) :
    regAt P (0x00100000 * (p + 1) + 0x40000 * arr.code + 8 * k) = some (.series p arr k) := by
  have hcode := arr.code_lt
  generalize ha : 0x00100000 * (p + 1) + 0x40000 * arr.code + 8 * k = a
  have hport : a / 0x100000 - 1 = p := by omega
  have harr : a % 0x100000 / 0x40000 = arr.code := by omega
  have hentry : a % 0x100000 % 0x40000 / 8 = k := by omega
  rw [regAt, if_neg (by omega), if_neg (by omega), if_neg (by omega)]
  dsimp only
  rw [hport, harr, hentry, if_pos ⟨hp, hk⟩, SeriesArr.ofCode_code]

theorem regAt_of_regAddress {P : Params} (hP : P.valid) {a : Nat} {r : Reg} (h : regAddress P r = some a) :
    regAt P a = some r := by
  obtain ⟨-, -, -, -, -, hbins, -, hreaders, -, -⟩ := hP
  cases r with
  | pcmd p => exact regAt_port (off := 0) hreaders h rfl (by decide) (by decide)
  | pstatus p | psnap p | presultSample p | plastBins p => exact regAt_port hreaders h rfl (by decide) (by decide)
  | parg p k => cases k <;> exact regAt_port hreaders h rfl (by decide) (by decide)
  | series p arr k =>
    obtain ⟨⟨hp, hk⟩, ha⟩ := Option.ite_none_right_eq_some.1 h
    obtain rfl := Option.some.inj ha
    exact regAt_seriesEntry hp hk (by omega) arr
  | cfg f | act f =>
    cases h
    cases f <;> exact regAt_control P (by decide) (by decide)
  | _ =>
    cases h
    exact regAt_control P (by decide) (by decide)

/-- Settles O51: each of the two maps answers as the other says. -/
theorem everyRegisterIsAtItsAddress : Obligations.EveryRegisterIsAtItsAddress :=
  fun _ _ _ hP => ⟨regAddress_of_regAt, regAt_of_regAddress hP⟩

/-! ### Illegal words -/

/-- A CTRL word that is no command records ERR_OPCODE (R114). -/
theorem fetchCtrl_illegal {w : Word64} (hd : ∀ i, decode .ctrl (bytesLE 8 w.toNat) ≠ .ok i) (s : State) :
    fetchCtrl s w = .done ({ s with busResp := .data 0 }.ctrlDone .errOpcode) := by
  unfold fetchCtrl
  dsimp only
  split
  · exact absurd ‹_› (hd _)
  · rfl

/-- A word that is no command of an idle port is accepted and fails at once (R115, R305). -/
theorem fetchPcmd_illegal {s : State} {p : Nat} {q : Port} {w : Word64} (hq : s.port? p = some q) (hc : q.cmd = none)
    (hd : ∀ i, decode (.port p) (bytesLE 8 w.toNat) ≠ .ok i) :
    fetchPcmd s p w = .done ({ s with busResp := .data 0 }.setPort p
      { q with done := false, err := true, overrun := false, result := .errOpcode }) := by
  have hidle : ¬ q.busy = true := by simp [Port.busy, hc]
  simp only [fetchPcmd, hq, if_neg hidle]
  split
  · exact absurd ‹_› (hd _)
  · rw [Port.fail_accept_of_idle hc]

/-- Settles O14, through what the fetch of an illegal word is. -/
theorem illegalWordsReportErrOpcode : Obligations.IllegalWordsReportErrOpcode := by
  constructor
  · intro s pick w rest hd hs
    exact (step_of_schedule hs).trans (congrArg Fetched.outcome (fetchCtrl_illegal hd (s.begin rest pick s.busResp)))
  · intro s p pick q w rest hp hp' hq hc hd hs
    exact (step_pcmd hp hp' hs).trans
      (congrArg Fetched.outcome (fetchPcmd_illegal (s := s.begin rest pick s.busResp) hq hc hd))

end Sys2Proof.Machine
end

section
/-!
The control commands and the check of a ParserConfig (spec/40_control.md), the engine's answer to the stop flag (R141, R200,
R201), and the staged configuration (R152).
-/
namespace Sys2Proof.Machine

/-! ### Validate -/

/-- Under a known pack mode, the geometry check fails where that mode's relation between payload and sample count does. -/
theorem ParserConfig.geometryOk_eq_false_iff {c : ParserConfig} (hp : c.pack = 0 ∨ c.pack = 1) :
    c.geometryOk = false ↔
      (c.pack = 0 ∧ (c.payload.toNat % 5 ≠ 0 ∨ c.payload.toNat / 5 * 4 ≠ c.spf.toNat)) ∨
      (c.pack = 1 ∧ c.payload.toNat < 2 * c.spf.toNat) := by
  rcases hp with hp | hp
  · simp [ParserConfig.geometryOk, hp, imp_iff_not_or]
  · simp [ParserConfig.geometryOk, hp]

/-- Settles O9: the checks before the failing one are passed, branch by branch. -/
theorem validateReturnsTheFirstFailure : Obligations.ValidateReturnsTheFirstFailure := by
  intro maxSpf c badPack badSplit badSpf badBps badGeometry
  have hmode (h : ¬badPack) : ¬¬(c.pack = 0 ∨ c.pack = 1) := mt not_or.1 h
  have hgeometry (h : ¬badPack) : (!c.geometryOk) = true ↔ badGeometry := by
    rw [Bool.not_eq_true']
    exact ParserConfig.geometryOk_eq_false_iff (not_not.1 (hmode h))
  unfold ParserConfig.validate
  refine ⟨fun hpack => if_pos (not_or.2 hpack), fun hpack hsplit => ?_, fun hpack hsplit hspf => ?_,
    fun hpack hsplit hspf hbps => ?_, fun hpack hsplit hspf hbps hgeo => ?_, fun hpack hsplit hspf hbps hgeo => ?_⟩
  · rw [if_neg (hmode hpack), if_pos hsplit]
  · rw [if_neg (hmode hpack), if_neg hsplit, if_pos hspf]
  · rw [if_neg (hmode hpack), if_neg hsplit, if_neg hspf, if_pos hbps]
  · rw [if_neg (hmode hpack), if_neg hsplit, if_neg hspf, if_neg hbps, if_pos ((hgeometry hpack).2 hgeo)]
  · rw [if_neg (hmode hpack), if_neg hsplit, if_neg hspf, if_neg hbps, if_neg (mt (hgeometry hpack).1 hgeo)]

/-! ### START and STOP -/

theorem State.not_running_of_stopped {s : State} (h : s.engine = .stopped) : ¬ s.running = true :=
  fun hr => State.running_iff.1 hr h

theorem exec_start_running {s : State} (h : s.engine ≠ .stopped) : exec .start s = .next (s.ctrlDone .errState) :=
  if_pos (State.running_iff.2 h)

theorem exec_start_stopped {s : State} (h : s.engine = .stopped) : exec .start s = .next
    { s with srcError := false, stopPending := false, grace := false, engine := .receive, ctrlResult := .ok } :=
  if_neg (State.not_running_of_stopped h)

/-- Settles O6. -/
theorem startBeginsASessionOrIsRefused : Obligations.StartBeginsASessionOrIsRefused :=
  ⟨decodeOfEncodeIsTheInstruction .start rfl, fun _ => exec_start_running, fun _ => exec_start_stopped⟩

theorem exec_stop_stopped {s : State} (h : s.engine = .stopped) : exec .stop s = .next (s.ctrlDone .ok) :=
  if_neg (State.not_running_of_stopped h)

theorem exec_stop_running {s : State} (h : s.engine ≠ .stopped) : exec .stop s = .next
    { s with grace := s.grace || (!s.stopPending && s.receiving), stopPending := true, ctrlResult := .ok } :=
  if_pos (State.running_iff.2 h)

/-- Settles O7: GRACE is raised where the flag was down and the engine in RECEIVE, and nowhere else. -/
theorem stopRaisesTheFlag : Obligations.StopRaisesTheFlag := by
  refine ⟨decodeOfEncodeIsTheInstruction .stop rfl, fun s => exec_stop_stopped, fun s he hflag => ?_,
    fun s he hwait => ?_⟩
  · have hgrace : (s.grace || (!s.stopPending && s.receiving)) = true := by simp [hflag, State.receiving_iff.2 he]
    rw [exec_stop_running (by simp [he]), hgrace]
  · have hwaiting : (!s.stopPending && s.receiving) = false := by
      rcases hwait with hne | hflag
      · simp [mt State.receiving_iff.1 hne]
      · simp [hflag]
    rw [exec_stop_running he, hwaiting, Bool.or_false]

/-! ### CFG_COMMIT -/

theorem State.anyBusy_iff {s : State} : s.anyBusy = true ↔ ∃ q ∈ s.ports, q.cmd ≠ none := by
  simp [State.anyBusy, Port.busy, Option.isSome_iff_ne_none]

theorem exec_cfgCommit_running {s : State} (h : s.engine ≠ .stopped) :
    exec .cfgCommit s = .next (s.ctrlDone .errState) :=
  if_pos (State.running_iff.2 h)

theorem exec_cfgCommit_busy {s : State} (h : s.engine = .stopped) (hbusy : s.anyBusy = true) :
    exec .cfgCommit s = .next (s.ctrlDone .errPortBusy) :=
  (if_neg (State.not_running_of_stopped h)).trans (if_pos hbusy)

/-- With no session and no busy port, Validate decides (R150). -/
theorem exec_cfgCommit_idle {s : State} (h : s.engine = .stopped) (hidle : ∀ q ∈ s.ports, q.cmd = none) :
    exec .cfgCommit s = .next (if s.staged.validate s.params.maxSpf = .ok then s.rebuild
      else s.ctrlDone (s.staged.validate s.params.maxSpf)) := by
  have hbusy : ¬ s.anyBusy = true := fun hb =>
    let ⟨q, hq, hc⟩ := State.anyBusy_iff.1 hb
    hc (hidle q hq)
  change execCfgCommit s = _
  rw [execCfgCommit, if_neg (State.not_running_of_stopped h), if_neg hbusy]
  split
  · rw [if_pos ‹_›]
  · rw [if_neg ‹_›]

/-- Settles O8. -/
theorem commitIsAllOrNothing : Obligations.CommitIsAllOrNothing := by
  refine ⟨decodeOfEncodeIsTheInstruction .cfgCommit rfl, fun s => exec_cfgCommit_running, fun s q he hq hc => ?_,
    fun s he hidle hbad => ?_, fun s he hidle hok => ?_⟩
  · exact exec_cfgCommit_busy he (State.anyBusy_iff.2 ⟨q, hq, hc⟩)
  · rw [exec_cfgCommit_idle he hidle, if_neg hbad]
    rfl
  · rw [exec_cfgCommit_idle he hidle, if_pos hok]
    rfl

/-! ### The stop flag -/

/-- An event the engine cannot take stays with the source (R141, log 19). -/
theorem fetchOffer_not_accepted {s : State} {bytes : List Byte} {i : Instr} (hd : decode .ingress bytes = .ok i)
    (ha : ¬ s.accepts = true) : fetchOffer s bytes = .done s := by
  simp [fetchOffer, hd, ha]

theorem Engine.packet?_receive : Engine.receive.packet? = none := rfl

/-- In RECEIVE the engine's step is the exit where the flag is up (R201). -/
theorem fetchEngine_exit {s : State} (he : s.engine = .receive) (hflag : s.stopPending = true) :
    fetchEngine s = .done s.engineExit := by
  simp [fetchEngine, he, State.receiving_iff.2 he, hflag, Engine.packet?_receive]

/-- In RECEIVE the engine waits where the flag is down (R200). -/
theorem fetchEngine_wait {s : State} (he : s.engine = .receive) (hflag : s.stopPending = false) :
    fetchEngine s = .done s := by
  simp [fetchEngine, he, hflag, Engine.packet?_receive]

/-- A step that fetches a state without an instruction ends in that state. -/
theorem step_of_fetch_done {s u : State} {a : Action} {rest : List Action} (hs : s.schedule = a :: rest)
    (hf : fetch a { s with schedule := rest } = .done u) : step s = .next u :=
  (step_of_schedule hs).trans (congrArg Fetched.outcome hf)

/-- Settles O44. -/
theorem theStopFlagEndsTheSession : Obligations.TheStopFlagEndsTheSession := by
  refine fun s rest => ⟨fun i bytes hs hd hstop => ?_, fun hs he hflag => ?_, fun hs he hflag => ?_⟩
  · have hrefuses : ¬ s.accepts = true := by
      rw [State.accepts_iff]
      rintro ⟨he, htake⟩
      rcases hstop with hne | ⟨hflag, hgrace⟩
      · exact hne he
      · simp [hflag, hgrace] at htake
    exact step_of_fetch_done hs (fetchOffer_not_accepted hd hrefuses)
  · exact step_of_fetch_done hs (fetchEngine_exit (s := { s with schedule := rest }) he hflag)
  · exact step_of_fetch_done hs (fetchEngine_wait (s := { s with schedule := rest }) he hflag)

/-! ### The staged configuration -/

theorem ParserConfig.get_set (c : ParserConfig) (f g : CfgField) (v : Word32) :
    (c.set f v).get g = if g = f then v else c.get g := by
  cases f <;> cases g <;> rfl

/-- Settles O53. -/
theorem cfgWritesOnlyStage : Obligations.CfgWritesOnlyStage := by
  intro s f pick v addr rest hr hs
  refine ⟨?_, (ParserConfig.get_set _ f f _).trans (if_pos rfl),
    fun g hg => (ParserConfig.get_set _ f g _).trans (if_neg hg)⟩
  rw [step_write hr (by simp) (by simp) hs, State.hostStore_of_accepted rfl]
  rfl

end Sys2Proof.Machine
end

section
/-!
LinkDemux (spec/41_demux.md): what each header check answers, in the order of the checks, and the captured bytes it
reads.
-/
namespace Sys2Proof.Machine

/-! ### VLAN tags -/

section
variable {caplen fuel p : Nat} {d : List Byte}

theorem isVlan_iff {et : Nat} : isVlan et = true ↔ et = 0x8100 ∨ et = 0x88A8 :=
  decide_eq_true_iff

/-- A tag whose next EtherType is captured is skipped (R172). -/
theorem etherWalk_tag (hvlan : isVlan (be16 d p) = true) (hcap : p + 6 ≤ caplen) :
    etherWalk caplen d (fuel + 1) p = etherWalk caplen d fuel (p + 4) :=
  (if_pos hvlan).trans (if_neg (by omega))

/-- A tag whose next EtherType is not captured ends the walk (R172). -/
theorem etherWalk_tag_cut (hvlan : isVlan (be16 d p) = true) (hcap : caplen < p + 6) :
    etherWalk caplen d (fuel + 1) p = .error .linkTruncated :=
  (if_pos hvlan).trans (if_pos hcap)

theorem etherWalk_ipv4 (het : be16 d p = 0x0800) : etherWalk caplen d (fuel + 1) p = .ok (p + 2) := by
  have hvlan : ¬ isVlan (be16 d p) = true := by simp [isVlan_iff, het]
  exact (if_neg hvlan).trans (if_neg (not_not_intro het))

theorem etherWalk_notIpv4 (hvlan : ¬ isVlan (be16 d p) = true) (het : be16 d p ≠ 0x0800) :
    etherWalk caplen d (fuel + 1) p = .error .notIpv4 :=
  (if_neg hvlan).trans (if_pos het)

/-- `k` tags, each followed by a captured EtherType, are skipped one by one. -/
theorem etherWalk_tags {k : Nat} (htags : ∀ j < k, isVlan (be16 d (p + 4 * j)) = true)
    (hcap : p + 4 * k + 2 ≤ caplen) :
    etherWalk caplen d (fuel + k) p = etherWalk caplen d fuel (p + 4 * k) := by
  induction k generalizing fuel with
  | zero => rfl
  | succ k ih =>
    calc etherWalk caplen d (fuel + (k + 1)) p
        = etherWalk caplen d (fuel + 1 + k) p := by rw [Nat.add_right_comm, Nat.add_assoc]
      _ = etherWalk caplen d (fuel + 1) (p + 4 * k) := ih (fun j hj => htags j (by omega)) (by omega)
      _ = etherWalk caplen d fuel (p + 4 * (k + 1)) := etherWalk_tag (htags k (by omega)) (by omega)

end

/-! ### Link headers -/

section
variable {tag : Word16} {caplen : Nat} {d : List Byte}

theorem linkHeader_ethernet_short (hcap : caplen < 14) : linkHeader 1 caplen d = .error .linkTruncated :=
  if_pos hcap

/-- After `k` tags the walk is at the EtherType at 12 + 4k, with fuel left: a tag takes 4 captured bytes (R172). -/
theorem linkHeader_ethernet_tags {k : Nat} (htags : ∀ j < k, isVlan (be16 d (12 + 4 * j)) = true)
    (hcap : 14 + 4 * k ≤ caplen) :
    linkHeader 1 caplen d = etherWalk caplen d (caplen - k - 1 + 1) (12 + 4 * k) := by
  have hfuel : caplen - k - 1 + 1 + k = caplen := by omega
  calc linkHeader 1 caplen d
      = ethernetHeader caplen d := rfl
    _ = etherWalk caplen d caplen 12 := if_neg (by omega)
    _ = etherWalk caplen d (caplen - k - 1 + 1 + k) 12 := by rw [hfuel]
    _ = etherWalk caplen d (caplen - k - 1 + 1) (12 + 4 * k) := etherWalk_tags htags (by omega)

theorem linkHeader_cooked1 :
    linkHeader 2 caplen d = if caplen < 16 then .error .linkTruncated else .ok 16 := rfl

theorem linkHeader_cooked2 :
    linkHeader 3 caplen d = if caplen < 20 then .error .linkTruncated else .ok 20 := rfl

theorem linkHeader_rawIp : linkHeader 4 caplen d = .ok 0 := rfl

theorem linkHeader_unsupported (h1 : tag ≠ 1) (h2 : tag ≠ 2) (h3 : tag ≠ 3) (h4 : tag ≠ 4) :
    linkHeader tag caplen d = .error .linkUnsupported := by
  rw [linkHeader, if_neg h1, if_neg h2, if_neg h3, if_neg h4]

end

/-! ### The IPv4 header -/

section
variable {caplen l3 u : Nat} {d : List Byte}

theorem ipHeader_short (hcap : caplen < l3 + 20) : ipHeader caplen d l3 = .error .ipTruncated :=
  if_pos (by omega)

theorem ipHeader_version (hcap : l3 + 20 ≤ caplen) (hver : (byteAt d l3).toNat / 16 ≠ 4) :
    ipHeader caplen d l3 = .error .ipVersion :=
  (if_neg (by omega)).trans (if_pos hver)

theorem ipHeader_ihl (hcap : l3 + 20 ≤ caplen) (hver : (byteAt d l3).toNat / 16 = 4)
    (hihl : (byteAt d l3).toNat % 16 < 5) : ipHeader caplen d l3 = .error .ipIhl :=
  (if_neg (by omega)).trans <| (if_neg (not_not_intro hver)).trans (if_pos hihl)

/-- The header passes its length, version and IHL checks: the protocol decides (R176). -/
theorem ipHeader_protocol (hcap : l3 + 20 ≤ caplen) (hver : (byteAt d l3).toNat / 16 = 4)
    (hihl : ¬ (byteAt d l3).toNat % 16 < 5) :
    ipHeader caplen d l3 = if (byteAt d (l3 + 9)).toNat ≠ 17 then .error .notUdp
      else .ok (l3 + 4 * ((byteAt d l3).toNat % 16)) := by
  have hproto : byteAt d (l3 + 9) ≠ 17 ↔ (byteAt d (l3 + 9)).toNat ≠ 17 := not_congr BitVec.toNat_inj.symm
  rw [ipHeader, if_neg (by omega), if_neg (not_not_intro hver), if_neg hihl]
  simp only [hproto]

/-- The UDP header lies past the 20 bytes of the smallest IPv4 header (R176). -/
theorem le_of_ipHeader_ok (h : ipHeader caplen d l3 = .ok u) : l3 + 20 ≤ u := by
  unfold ipHeader at h
  split_ifs at h
  cases h
  omega

end

/-! ### The UDP header -/

section
variable {caplen u off len : Nat} {d : List Byte}

theorem udpHeader_short (hcap : caplen < u + 8) : udpHeader caplen d u = .error .udpTruncated :=
  if_pos hcap

theorem udpHeader_length (hcap : u + 8 ≤ caplen) (hlen : be16 d (u + 4) < 8) :
    udpHeader caplen d u = .error .udpLength :=
  (if_neg (by omega)).trans (if_pos hlen)

theorem udpHeader_payload (hcap : u + 8 ≤ caplen) (hlen : 8 ≤ be16 d (u + 4)) :
    udpHeader caplen d u = .ok (u + 8, min (be16 d (u + 4) - 8) (caplen - (u + 8))) :=
  (if_neg (by omega)).trans (if_neg (by omega))

theorem off_of_udpHeader_ok (h : udpHeader caplen d u = .ok (off, len)) : off = u + 8 := by
  unfold udpHeader at h
  split_ifs at h
  cases h
  rfl

end

/-! ### LinkDemux as a chain of headers -/

section
variable {tag : Word16} {caplen l3 u : Nat} {d : List Byte} {r : DropReason}

/-- The headers are parsed one after another; the first that fails decides (R170). -/
theorem linkDemux_eq_bind : linkDemux tag caplen d =
    (linkHeader tag caplen d).bind fun l3 => (ipHeader caplen d l3).bind (udpHeader caplen d) := by
  unfold linkDemux
  cases linkHeader tag caplen d with
  | error r => rfl
  | ok l3 =>
    dsimp only [Except.bind]
    cases ipHeader caplen d l3 <;> rfl

theorem linkDemux_of_linkHeader_error (h : linkHeader tag caplen d = .error r) :
    linkDemux tag caplen d = .error r := by
  rw [linkDemux_eq_bind, h, Except.bind]

theorem linkDemux_of_linkHeader_ok (h : linkHeader tag caplen d = .ok l3) :
    linkDemux tag caplen d = (ipHeader caplen d l3).bind (udpHeader caplen d) := by
  rw [linkDemux_eq_bind, h, Except.bind]

theorem linkDemux_of_ipHeader_error (hlink : linkHeader tag caplen d = .ok l3)
    (hip : ipHeader caplen d l3 = .error r) : linkDemux tag caplen d = .error r := by
  rw [linkDemux_of_linkHeader_ok hlink, hip, Except.bind]

theorem linkDemux_of_ipHeader_ok (hlink : linkHeader tag caplen d = .ok l3)
    (hip : ipHeader caplen d l3 = .ok u) : linkDemux tag caplen d = udpHeader caplen d u := by
  rw [linkDemux_of_linkHeader_ok hlink, hip, Except.bind]

/-- Where LinkDemux succeeds, every header did. -/
theorem headers_of_linkDemux_ok {payload : Nat × Nat} (h : linkDemux tag caplen d = .ok payload) :
    ∃ l3 u, linkHeader tag caplen d = .ok l3 ∧ ipHeader caplen d l3 = .ok u ∧
      udpHeader caplen d u = .ok payload := by
  cases hlink : linkHeader tag caplen d with
  | error r => simp [linkDemux_of_linkHeader_error hlink] at h
  | ok l3 =>
    cases hip : ipHeader caplen d l3 with
    | error r => simp [linkDemux_of_ipHeader_error hlink hip] at h
    | ok u => exact ⟨l3, u, rfl, hip, linkDemux_of_ipHeader_ok hlink hip ▸ h⟩

end

/-! ### Captured bytes -/

section
variable {caplen : Nat} {d d' : List Byte} (hagree : ∀ k, k < caplen → byteAt d k = byteAt d' k)
include hagree

theorem be16_congr {k : Nat} (hk : k + 2 ≤ caplen) : be16 d k = be16 d' k := by
  rw [be16, be16, hagree k (by omega), hagree (k + 1) (by omega)]

/-- The walk reads an EtherType only where the bounds check before it passed (R172, R181). -/
theorem etherWalk_congr {fuel p : Nat} (hp : p + 2 ≤ caplen) :
    etherWalk caplen d fuel p = etherWalk caplen d' fuel p := by
  induction fuel generalizing p with
  | zero => rfl
  | succ fuel ih =>
    rw [etherWalk, etherWalk, be16_congr hagree hp]
    split
    · split
      · rfl
      · exact ih (by omega)
    · rfl

theorem linkHeader_congr {tag : Word16} : linkHeader tag caplen d = linkHeader tag caplen d' := by
  have hether : ethernetHeader caplen d = ethernetHeader caplen d' := by
    unfold ethernetHeader
    split
    · rfl
    · exact etherWalk_congr hagree (by omega)
  rw [linkHeader, linkHeader, hether]

theorem ipHeader_congr : ipHeader caplen d = ipHeader caplen d' := by
  funext l3
  by_cases hcap : caplen < l3 + 20
  · rw [ipHeader_short hcap, ipHeader_short hcap]
  · rw [ipHeader, ipHeader, hagree l3 (by omega), hagree (l3 + 9) (by omega)]

theorem udpHeader_congr : udpHeader caplen d = udpHeader caplen d' := by
  funext u
  by_cases hcap : caplen < u + 8
  · rw [udpHeader_short hcap, udpHeader_short hcap]
  · rw [udpHeader, udpHeader, be16_congr hagree (by omega)]

theorem linkDemux_congr {tag : Word16} : linkDemux tag caplen d = linkDemux tag caplen d' := by
  rw [linkDemux_eq_bind, linkDemux_eq_bind, linkHeader_congr hagree, ipHeader_congr hagree, udpHeader_congr hagree]

end

/-! ### The statements -/

/-- Settles O32: with the tags before it captured, the EtherType after them decides; in a capture that ends before it,
the last tag does. -/
theorem vlanTagsMoveTheNetworkHeader : Obligations.VlanTagsMoveTheNetworkHeader := by
  intro caplen d k htypes
  have htags : ∀ j < k, isVlan (be16 d (12 + 4 * j)) = true := fun j hj => isVlan_iff.2 (htypes j hj)
  refine ⟨linkHeader_ethernet_short, fun hcap het => ?_, fun hcap het hC hS => ?_, fun hk hcap hcut => ?_⟩
  · rw [linkHeader_ethernet_tags htags hcap, etherWalk_ipv4 het, Nat.add_right_comm]
  · have hvlan : ¬ isVlan (be16 d (12 + 4 * k)) = true := fun h => (isVlan_iff.1 h).elim hC hS
    rw [linkHeader_ethernet_tags htags hcap, etherWalk_notIpv4 hvlan het]
  · obtain ⟨k, rfl⟩ := Nat.exists_eq_add_one.2 hk
    rw [linkHeader_ethernet_tags (k := k) (fun j hj => htags j (by omega)) (by omega),
      etherWalk_tag_cut (htags k (by omega)) (by omega)]

/-- Settles O34. -/
theorem ipv4AndUdpChecksInOrder : Obligations.Ipv4AndUdpChecksInOrder := by
  refine ⟨fun tag caplen d r => linkDemux_of_linkHeader_error, fun tag caplen l3 d hlink => ?_⟩
  intro first u ulen badVersion badIhl notUdp
  have toUdp (hcap : l3 + 20 ≤ caplen) (hver : ¬ badVersion) (hihl : ¬ badIhl) (hudp : ¬ notUdp) :
      linkDemux tag caplen d = udpHeader caplen d u :=
    linkDemux_of_ipHeader_ok hlink ((ipHeader_protocol hcap (not_not.1 hver) hihl).trans (if_neg hudp))
  refine ⟨fun hcap => ?_, fun hcap hver => ?_, fun hcap hver hihl => ?_, fun hcap hver hihl hudp => ?_,
    fun hcap hver hihl hudp hshort => ?_, fun hcap hver hihl hudp hwhole hlen => ?_,
    fun hcap hver hihl hudp hwhole hlen => ?_⟩
  · exact linkDemux_of_ipHeader_error hlink (ipHeader_short hcap)
  · exact linkDemux_of_ipHeader_error hlink (ipHeader_version hcap hver)
  · exact linkDemux_of_ipHeader_error hlink (ipHeader_ihl hcap (not_not.1 hver) hihl)
  · exact linkDemux_of_ipHeader_error hlink ((ipHeader_protocol hcap (not_not.1 hver) hihl).trans (if_pos hudp))
  · exact (toUdp hcap hver hihl hudp).trans (udpHeader_short hshort)
  · exact (toUdp hcap hver hihl hudp).trans (udpHeader_length hwhole hlen)
  · exact (toUdp hcap hver hihl hudp).trans (udpHeader_payload hwhole hlen)

/-- Settles O35: 20 bytes of IPv4 header and 8 of UDP header stand before the payload, and every byte read lies below a
length that was checked. -/
theorem demuxStaysInsideTheCapture : Obligations.DemuxStaysInsideTheCapture := by
  refine ⟨fun tag caplen off len d h => ⟨?_, linkDemux_within h⟩,
    fun tag caplen d d' hagree => linkDemux_congr hagree⟩
  obtain ⟨l3, u, _, hip, hudp⟩ := headers_of_linkDemux_ok h
  have hu : l3 + 20 ≤ u := le_of_ipHeader_ok hip
  have hoff : off = u + 8 := off_of_udpHeader_ok hudp
  omega

/-- Settles O33. -/
theorem fixedLinkHeaders : Obligations.FixedLinkHeaders := by
  refine fun tag caplen d => ⟨?_, ?_, ?_, fun h1 h2 h3 h4 => ?_⟩
  · rintro rfl
    exact linkHeader_cooked1
  · rintro rfl
    exact linkHeader_cooked2
  · rintro rfl
    exact linkHeader_rawIp
  · exact linkDemux_of_linkHeader_error (linkHeader_unsupported h1 h2 h3 h4)

end Sys2Proof.Machine
end

section
/-!
What the capture engine does with an event it takes (R201 to R204), the steps of a packet before PUBLISH (R200, R205,
R206, R208), and the bytes BitUnpacker reads (R207, R223).
-/
namespace Sys2Proof.Machine

/-! ### Events that are taken -/

/-- A packet above MAX_CAPLEN is dropped without its bytes being read (R202). -/
theorem State.takePacket_oversize {s : State} {k : Packet} (h : s.params.maxCaplen < k.caplen.toNat) :
    s.takePacket k = { s with grace := false, engine := .drop k .oversize } := by
  rw [State.takePacket, if_pos h]

theorem State.takePacket_fits {s : State} {k : Packet} (h : k.caplen.toNat ≤ s.params.maxCaplen) :
    s.takePacket k = { s with grace := false, engine := .demux k } := by
  rw [State.takePacket, if_neg (Nat.not_lt_of_le h)]

/-- An offered packet that can be taken is taken (R201, R202). -/
theorem exec_ingressPacket_taken {s : State} (h : s.accepts = true) (k : Packet) :
    exec k.instr s = .next (s.takePacket k) :=
  execIngressPacket_taken h

/-- Settles O39. -/
theorem packetIsTakenInReceive : Obligations.PacketIsTakenInReceive := by
  intro tag caplen wirelen data s he hstop
  have htaken := exec_ingressPacket_taken (State.accepts_iff.2 ⟨he, hstop⟩) ⟨tag, caplen, wirelen, data⟩
  refine ⟨fun hcap => htaken.trans ?_, fun hcap => htaken.trans ?_⟩
  · rw [State.takePacket_oversize hcap]
  · rw [State.takePacket_fits hcap]

theorem exec_ingressTimeout (s : State) : exec .ingressTimeout s = .next s.takeNothing := rfl

theorem exec_ingressKind3 (s : State) : exec .ingressKind3 s = .next s.takeNothing := rfl

/-- Taking an event without a packet clears GRACE (R203). -/
theorem State.takeNothing_of_accepts {s : State} (h : s.accepts = true) : s.takeNothing = { s with grace := false } :=
  if_pos h

/-- Settles O42. -/
theorem timeoutAndKindThreeDoNothing : Obligations.TimeoutAndKindThreeDoNothing := by
  intro i s hi he hstop
  rw [← State.takeNothing_of_accepts (State.accepts_iff.2 ⟨he, hstop⟩)]
  rcases hi with rfl | rfl
  · exact exec_ingressTimeout s
  · exact exec_ingressKind3 s

/-- Settles O43. -/
theorem sourceErrorEndsTheSession : Obligations.SourceErrorEndsTheSession :=
  fun _ he hstop => if_pos (State.accepts_iff.2 ⟨he, hstop⟩)

/-! ### The steps of a packet before PUBLISH -/

/-- The packet instruction of the packet the engine holds is the engine's next step (R200, log 7). -/
theorem exec_packet_held {s : State} {k : Packet} (h : s.engine.packet? = some k) : exec k.instr s = engineStep s :=
  execIngressPacket_held h

theorem exec_demux_ok {s : State} {k : Packet} {off len : Nat} (he : s.engine = .demux k)
    (h : linkDemux k.tag k.caplen.toNat k.data = .ok (off, len)) :
    exec k.instr s = .next { s with engine := .lengthCheck k off len } := by
  rw [exec_packet_held (by rw [he]; rfl)]
  simp only [engineStep, he, demuxStep, h]

theorem exec_demux_error {s : State} {k : Packet} {r : DropReason} (he : s.engine = .demux k)
    (h : linkDemux k.tag k.caplen.toNat k.data = .error r) :
    exec k.instr s = .next { s with engine := .drop k r } := by
  rw [exec_packet_held (by rw [he]; rfl)]
  simp only [engineStep, he, demuxStep, h]

/-- A payload of exactly frame_size bytes goes on to UNPACK (R206). -/
theorem exec_lengthCheck_equal {s : State} {k : Packet} {off len : Nat} (he : s.engine = .lengthCheck k off len)
    (h : len = s.active.frameSize.toNat) : exec k.instr s = .next { s with engine := .unpack k off len } := by
  rw [exec_packet_held (by rw [he]; rfl)]
  simp only [engineStep, he, lengthStep, if_pos h]

theorem exec_lengthCheck_mismatch {s : State} {k : Packet} {off len : Nat} (he : s.engine = .lengthCheck k off len)
    (h : len ≠ s.active.frameSize.toNat) :
    exec k.instr s = .next { s with engine := .drop k .lengthMismatch } := by
  rw [exec_packet_held (by rw [he]; rfl)]
  simp only [engineStep, he, lengthStep, if_neg h]

theorem exec_unpack_some {s : State} {k : Packet} {off len : Nat} {frame : List Word16}
    (he : s.engine = .unpack k off len) (h : unpackFrame s.active off k.data = some frame) :
    exec k.instr s = .next { s with engine := .publish k frame .countFrame } := by
  rw [exec_packet_held (by rw [he]; rfl)]
  simp only [engineStep, he, unpackStep, h]

theorem exec_drop {s : State} {k : Packet} {r : DropReason} (he : s.engine = .drop k r) :
    exec k.instr s = .next (s.dropPacket r) := by
  rw [exec_packet_held (by rw [he]; rfl), engineStep, he]

/-- Settles O40. -/
theorem lengthCheckIsStrictAndDropsCountOnce : Obligations.LengthCheckIsStrictAndDropsCountOnce :=
  fun _ _ _ _ _ => ⟨fun _ _ he => ⟨exec_lengthCheck_equal he, exec_lengthCheck_mismatch he⟩, fun _ he => exec_drop he⟩

/-! ### BitUnpacker -/

/-- The sample payload is a matter of the packet's bytes at its own offsets (R207). -/
theorem samplePayload_congr {c : ParserConfig} {off : Nat} {d d' : List Byte}
    (h : ∀ k, k < c.payload.toNat → d[off + c.header.toNat + k]? = d'[off + c.header.toNat + k]?) :
    samplePayload c off d = samplePayload c off d' := by
  apply List.ext_getElem?
  intro k
  rw [samplePayload, samplePayload, List.getElem?_take, List.getElem?_take, List.getElem?_drop, List.getElem?_drop]
  split_ifs with hk
  · exact h k hk
  · rfl

/-- Settles O37: Unpack sees the packet through its sample payload only. -/
theorem unpackIgnoresHeaderAndTail : Obligations.UnpackIgnoresHeaderAndTail := by
  intro c off d d' hagree
  rw [unpackFrame, unpackFrame, samplePayload_congr hagree]

/-- An accepted configuration names a pack mode that Unpack knows (R151, R220). -/
theorem exists_unpackFrame {maxSpf : Nat} {c : ParserConfig} (hv : c.validate maxSpf = .ok) (off : Nat)
    (d : List Byte) : ∃ frame, unpackFrame c off d = some frame := by
  unfold ParserConfig.validate at hv
  split_ifs at hv with hpack
  unfold unpackFrame
  rcases hpack with h0 | h1
  · exact ⟨_, if_pos h0⟩
  · exact ⟨_, (if_neg (by rw [h1]; decide)).trans (if_pos h1)⟩

end Sys2Proof.Machine
end

section
/-!
A packet from DEMUX to RECEIVE with no other agent in between (R200, R205, R206, R209, R210, R240, R241): the run of its
steps, and what the run leaves in the state.
-/
namespace Sys2Proof.Machine

/-! ### Runs of an instruction -/

/-- Some number of the instruction's steps goes from `s` to `t`. -/
def RunsTo (i : Instr) (s t : State) : Prop := ∃ n, execRun i n s = .next t

theorem execRun_succ_of_next {i : Instr} {s u : State} (h : exec i s = .next u) (n : Nat) :
    execRun i (n + 1) s = execRun i n u := by
  rw [execRun, h]

/-- A run goes on where another one ended. -/
theorem execRun_add {i : Instr} {m : Nat} {s u : State} (h : execRun i m s = .next u) (n : Nat) :
    execRun i (m + n) s = execRun i n u := by
  induction m generalizing s with
  | zero =>
    cases h
    rw [Nat.zero_add]
  | succ m ih =>
    rw [Nat.succ_add]
    cases hs : exec i s with
    | next v =>
      rw [execRun_succ_of_next hs] at h ⊢
      exact ih h
    | fault r =>
      rw [execRun, hs] at h
      cases h
    | refused r =>
      rw [execRun, hs] at h
      cases h

theorem RunsTo.refl (i : Instr) (s : State) : RunsTo i s s := ⟨0, rfl⟩

theorem RunsTo.of_exec {i : Instr} {s t : State} (h : exec i s = .next t) : RunsTo i s t :=
  ⟨1, execRun_succ_of_next h 0⟩

theorem RunsTo.trans {i : Instr} {s u t : State} (h : RunsTo i s u) (h' : RunsTo i u t) : RunsTo i s t := by
  obtain ⟨m, hm⟩ := h
  obtain ⟨n, hn⟩ := h'
  exact ⟨m + n, (execRun_add hm n).trans hn⟩

/-! ### The words of a frame -/

/-- The state after the RingWrites of the first `n` words of frame `i` (R240). -/
def State.appendWords (s : State) (i : Nat) (frame : List Word16) : Nat → State
  | 0 => s
  | n + 1 => (s.appendWords i frame n).ringWrite (s.ringAddr i n) (frame.getD n 0)

/-- The state without the ring words and the ports' record of the overwritten ones (R44, log 11). -/
def State.sansRing (s : State) : State :=
  { s with ring := [], ports := s.ports.map (fun q => { q with past := [] }) }

theorem State.sansRing_ringWrite (s : State) (a : Nat) (v : Word16) : (s.ringWrite a v).sansRing = s.sansRing := by
  simp [State.sansRing, State.ringWrite, Function.comp_def]

/-- The append writes ring words and nothing else. -/
theorem State.sansRing_appendWords (s : State) (i : Nat) (frame : List Word16) (n : Nat) :
    (s.appendWords i frame n).sansRing = s.sansRing := by
  induction n with
  | zero => rfl
  | succ n ih => rw [State.appendWords, State.sansRing_ringWrite, ih]

theorem State.appendWords_active (s : State) (i : Nat) (frame : List Word16) (n : Nat) :
    (s.appendWords i frame n).active = s.active :=
  (congrArg State.active (s.sansRing_appendWords i frame n) :)

theorem State.appendWords_ringAddr (s : State) (i : Nat) (frame : List Word16) (n j ch : Nat) :
    (s.appendWords i frame n).ringAddr j ch = s.ringAddr j ch :=
  (congrArg (fun t => State.ringAddr t j ch) (s.sansRing_appendWords i frame n) :)

theorem State.ringAddr_ne {s : State} {i ch ch' : Nat} (h : ch ≠ ch') : s.ringAddr i ch ≠ s.ringAddr i ch' :=
  fun heq => h (Nat.add_left_cancel heq)

/-- The words of the slot written so far are those of the frame (R240). -/
theorem State.read_appendWords_slot (s : State) (i : Nat) (frame : List Word16) {n ch : Nat} (h : ch < n) :
    (s.appendWords i frame n).ring.read (s.ringAddr i ch) = some (frame.getD ch 0) := by
  induction n with
  | zero => exact absurd h ch.not_lt_zero
  | succ n ih =>
    rw [State.appendWords, State.ring_read_ringWrite]
    rcases Nat.lt_succ_iff_lt_or_eq.1 h with hlt | rfl
    · rw [if_neg (State.ringAddr_ne hlt.ne), ih hlt]
    · rw [if_pos rfl]

/-- Every other word is as before (R240). -/
theorem State.read_appendWords_other (s : State) (i : Nat) (frame : List Word16) {n a : Nat}
    (h : ∀ ch, ch < n → a ≠ s.ringAddr i ch) : (s.appendWords i frame n).ring.read a = s.ring.read a := by
  induction n with
  | zero => rfl
  | succ n ih =>
    rw [State.appendWords, State.ring_read_ringWrite, if_neg (h n n.lt_succ_self)]
    exact ih fun ch hch => h ch (Nat.lt_succ_of_lt hch)

/-! ### PUBLISH -/

/-- The state after a packet's frame is published (R209, R210, R240, R241). -/
def State.publishFrame (s : State) (k : Packet) (frame : List Word16) : State :=
  { ((s.countFrame.countBytes k.wirelen).appendWords s.wcount.toNat frame s.active.spf.toNat).publishW s.wcount with
    engine := .receive }

/-- What PUBLISH leaves outside the ring: the two counts, W and WC_ADV, and the engine in RECEIVE (R209, R241). -/
theorem State.sansRing_publishFrame (s : State) (k : Packet) (frame : List Word16) :
    (s.publishFrame k frame).sansRing =
      { s with
        framesReceived := s.framesReceived + 1
        framesSeen := false
        bytesReceived := s.bytesReceived + k.wirelen.setWidth 64
        bytesSeen := false
        wcount := s.wcount + 1
        irqStatus := s.irqStatus ||| 1
        engine := .receive }.sansRing :=
  congrArg (fun t : State => { t.publishW s.wcount with engine := .receive })
    ((s.countFrame.countBytes k.wirelen).sansRing_appendWords s.wcount.toNat frame s.active.spf.toNat)

theorem State.read_publishFrame_slot (s : State) (k : Packet) (frame : List Word16) {ch : Nat}
    (h : ch < s.active.spf.toNat) :
    (s.publishFrame k frame).ring.read (s.ringAddr s.wcount.toNat ch) = some (frame.getD ch 0) :=
  (s.countFrame.countBytes k.wirelen).read_appendWords_slot s.wcount.toNat frame h

theorem State.read_publishFrame_other (s : State) (k : Packet) (frame : List Word16) {a : Nat}
    (h : ∀ ch, ch < s.active.spf.toNat → a ≠ s.ringAddr s.wcount.toNat ch) :
    (s.publishFrame k frame).ring.read a = s.ring.read a :=
  (s.countFrame.countBytes k.wirelen).read_appendWords_other s.wcount.toNat frame h

theorem exec_publish {s : State} {k : Packet} {frame : List Word16} {stage : PubStage}
    (he : s.engine = .publish k frame stage) : exec k.instr s = publishStep s k frame stage :=
  exec_ingressPacket_publish he

/-- One RingWrite of the append (R240). -/
theorem exec_publish_word {s : State} {k : Packet} {frame : List Word16} {w : Word64} {ch : Nat}
    (he : s.engine = .publish k frame (.write w ch)) (hch : ch < s.active.spf.toNat) :
    exec k.instr s = .next
      { s.ringWrite (s.ringAddr w.toNat ch) (frame.getD ch 0) with engine := .publish k frame (.write w (ch + 1)) } :=
  (exec_publish he).trans (if_pos hch)

/-- The publish, once all words are written (R241). -/
theorem exec_publish_release {s : State} {k : Packet} {frame : List Word16} {w : Word64} {ch : Nat}
    (he : s.engine = .publish k frame (.write w ch)) (hch : s.active.spf.toNat ≤ ch) :
    exec k.instr s = .next { s.publishW w with engine := .publish k frame .finish } :=
  (exec_publish he).trans (if_neg (Nat.not_lt_of_le hch))

/-- The read of W below its limit (R240). -/
theorem exec_publish_loadW {s : State} {k : Packet} {frame : List Word16} (he : s.engine = .publish k frame .loadW)
    (hw : s.wcount ≠ BitVec.allOnes 64) :
    exec k.instr s = .next { s with engine := .publish k frame (.write s.wcount 0) } :=
  (exec_publish he).trans (if_neg hw)

/-- The word writes of the append, one step for each (R211, R240). -/
theorem appendWords_run (s : State) (k : Packet) (frame : List Word16) (w : Word64) {n : Nat}
    (h : n ≤ s.active.spf.toNat) :
    RunsTo k.instr { s with engine := .publish k frame (.write w 0) }
      { s.appendWords w.toNat frame n with engine := .publish k frame (.write w n) } := by
  induction n with
  | zero => exact .refl _ _
  | succ n ih =>
    have hword := exec_publish_word (k := k) (frame := frame) (w := w) (ch := n)
      (s := { s.appendWords w.toNat frame n with engine := .publish k frame (.write w n) }) rfl
      (by rwa [State.appendWords_active])
    rw [State.appendWords, ← s.appendWords_ringAddr w.toNat frame n]
    exact (ih (Nat.le_of_succ_le h)).trans (.of_exec hword)

/-- PUBLISH runs to the end below the limit of W (R209, R240, R241). -/
theorem publish_run {s : State} (hw : s.wcount ≠ BitVec.allOnes 64) (k : Packet) (frame : List Word16) :
    RunsTo k.instr { s with engine := .publish k frame .countFrame } (s.publishFrame k frame) := by
  let counted := s.countFrame.countBytes k.wirelen
  let written := counted.appendWords s.wcount.toNat frame s.active.spf.toNat
  have hframe : RunsTo k.instr { s with engine := .publish k frame .countFrame }
      { s.countFrame with engine := .publish k frame .countBytes } :=
    .of_exec (exec_publish (stage := .countFrame) rfl)
  have hbytes : RunsTo k.instr { s.countFrame with engine := .publish k frame .countBytes }
      { counted with engine := .publish k frame .loadW } :=
    .of_exec (exec_publish (stage := .countBytes) rfl)
  have hload : RunsTo k.instr { counted with engine := .publish k frame .loadW }
      { counted with engine := .publish k frame (.write s.wcount 0) } := .of_exec (exec_publish_loadW rfl hw)
  have hwords : RunsTo k.instr { counted with engine := .publish k frame (.write s.wcount 0) }
      { written with engine := .publish k frame (.write s.wcount s.active.spf.toNat) } :=
    appendWords_run counted k frame s.wcount le_rfl
  have hrelease : RunsTo k.instr { written with engine := .publish k frame (.write s.wcount s.active.spf.toNat) }
      { written.publishW s.wcount with engine := .publish k frame .finish } :=
    .of_exec (exec_publish_release rfl (counted.appendWords_active s.wcount.toNat frame _ ▸ le_rfl))
  have hfinish : RunsTo k.instr { written.publishW s.wcount with engine := .publish k frame .finish }
      (s.publishFrame k frame) := .of_exec (exec_publish (stage := .finish) rfl)
  exact hframe.trans (hbytes.trans (hload.trans (hwords.trans (hrelease.trans hfinish))))

/-! ### From DEMUX to RECEIVE -/

/-- Why a packet whose payload is not exactly one frame is dropped (R205, R206). -/
def Packet.dropReason (k : Packet) : DropReason :=
  match linkDemux k.tag k.caplen.toNat k.data with
  | .error r => r
  | .ok _ => .lengthMismatch

theorem Packet.dropReason_of_error {k : Packet} {r : DropReason}
    (h : linkDemux k.tag k.caplen.toNat k.data = .error r) : k.dropReason = r := by
  rw [Packet.dropReason, h]

theorem Packet.dropReason_of_ok {k : Packet} {payload : Nat × Nat}
    (h : linkDemux k.tag k.caplen.toNat k.data = .ok payload) : k.dropReason = .lengthMismatch := by
  rw [Packet.dropReason, h]

/-- A packet that carries exactly frame_size bytes is run from DEMUX to its publish (R200, R206, R208). -/
theorem demux_run_publish {s : State} {k : Packet} (he : s.engine = .demux k) (hw : s.wcount ≠ BitVec.allOnes 64)
    {off : Nat} (hlink : linkDemux k.tag k.caplen.toNat k.data = .ok (off, s.active.frameSize.toNat))
    {frame : List Word16} (hframe : unpackFrame s.active off k.data = some frame) :
    RunsTo k.instr s (s.publishFrame k frame) := by
  have hdemux : RunsTo k.instr s { s with engine := .lengthCheck k off s.active.frameSize.toNat } :=
    .of_exec (exec_demux_ok he hlink)
  have hcheck : RunsTo k.instr { s with engine := .lengthCheck k off s.active.frameSize.toNat }
      { s with engine := .unpack k off s.active.frameSize.toNat } := .of_exec (exec_lengthCheck_equal rfl rfl)
  have hunpack : RunsTo k.instr { s with engine := .unpack k off s.active.frameSize.toNat }
      { s with engine := .publish k frame .countFrame } := .of_exec (exec_unpack_some rfl hframe)
  exact hdemux.trans (hcheck.trans (hunpack.trans (publish_run hw k frame)))

/-- Every other packet is run from DEMUX to its drop (R200, R205, R206). -/
theorem demux_run_drop {s : State} {k : Packet} (he : s.engine = .demux k)
    (hlink : ∀ off, linkDemux k.tag k.caplen.toNat k.data ≠ .ok (off, s.active.frameSize.toNat)) :
    RunsTo k.instr s (s.dropPacket k.dropReason) := by
  have hdrop : RunsTo k.instr { s with engine := .drop k k.dropReason } (s.dropPacket k.dropReason) :=
    .of_exec (exec_drop rfl)
  refine RunsTo.trans ?_ hdrop
  cases hout : linkDemux k.tag k.caplen.toNat k.data with
  | error r =>
    rw [Packet.dropReason_of_error hout]
    exact .of_exec (exec_demux_error he hout)
  | ok payload =>
    obtain ⟨off, len⟩ := payload
    have hlen : len ≠ s.active.frameSize.toNat := by
      rintro rfl
      exact hlink off hout
    have hdemux : RunsTo k.instr s { s with engine := .lengthCheck k off len } := .of_exec (exec_demux_ok he hout)
    rw [Packet.dropReason_of_ok hout]
    exact hdemux.trans (.of_exec (exec_lengthCheck_mismatch rfl hlen))

/-- Settles O45: the packet is published where LinkDemux recovers exactly frame_size bytes, and dropped everywhere
else. -/
theorem everyPacketIsPublishedOrDropped : Obligations.EveryPacketIsPublishedOrDropped := by
  intro s k hs he hw
  by_cases hlink : ∃ off, linkDemux k.tag k.caplen.toNat k.data = .ok (off, s.active.frameSize.toNat)
  · obtain ⟨off, hlink⟩ := hlink
    obtain ⟨frame, hframe⟩ := exists_unpackFrame hs.active_valid off k.data
    obtain ⟨n, hrun⟩ := demux_run_publish he hw hlink hframe
    have hrest {α : Type} (f : State → α) := congrArg f (s.sansRing_publishFrame k frame)
    refine ⟨n, s.publishFrame k frame, hrun, rfl, hrest State.active, hrest State.staged, hrest State.stopPending,
      hrest State.ctrlResult, hrest State.params, hrest State.srcError, hrest State.irqEnable, hrest State.grace,
      hrest State.ports, fun off' frame' hlink' hframe' => ?_, fun hne => absurd hlink (hne off),
      fun r hr => ?_, fun off' len hlink' hlen => ?_⟩
    · cases hlink.symm.trans hlink'
      cases hframe.symm.trans hframe'
      exact ⟨hrest State.framesReceived, hrest State.bytesReceived, hrest State.wcount, hrest State.irqStatus,
        hrest State.framesDropped, hrest State.dropReason, fun _ => s.read_publishFrame_slot k frame,
        fun _ => s.read_publishFrame_other k frame⟩
    · cases hlink.symm.trans hr
    · cases hlink.symm.trans hlink'
      exact absurd rfl hlen
  · have hne := not_exists.1 hlink
    obtain ⟨n, hrun⟩ := demux_run_drop he hne
    exact ⟨n, s.dropPacket k.dropReason, hrun, rfl, rfl, rfl, rfl, rfl, rfl, rfl, rfl, rfl, rfl,
      fun off _ h => absurd h (hne off), fun _ => ⟨rfl, rfl, rfl, rfl, rfl, rfl⟩,
      fun r h => congrArg some (Packet.dropReason_of_error h),
      fun off len h _ => congrArg some (Packet.dropReason_of_ok h)⟩

end Sys2Proof.Machine
end

section
/-!
What BitUnpacker computes: the two sample formulas at every index, their ranges, and the inverse of the packed one
(R221, R222, R224, R225).
-/
namespace Sys2Proof.Machine

/-! ### The bytes of the payload -/

/-- P[k] is byte k of the frame after its header (R220). -/
theorem byteAt_samplePayload {c : ParserConfig} {off : Nat} {d : List Byte} {k : Nat} (hk : k < c.payload.toNat) :
    byteAt (samplePayload c off d) k = byteAt d (off + c.header.toNat + k) := by
  simp only [byteAt, samplePayload, List.getD_eq_getElem?_getD, List.getElem?_take_of_lt hk, List.getElem?_drop]

/-! ### Packed10 -/

/-- Group `g` of a packed payload (R221). -/
def groupSamples (bs : List Byte) (g : Nat) : List Word16 :=
  unpackGroup (byteAt bs (5 * g)) (byteAt bs (5 * g + 1)) (byteAt bs (5 * g + 2)) (byteAt bs (5 * g + 3))
    (byteAt bs (5 * g + 4))

theorem groupSamples_succ (b0 b1 b2 b3 b4 : Byte) (rest : List Byte) (g : Nat) :
    groupSamples (b0 :: b1 :: b2 :: b3 :: b4 :: rest) (g + 1) = groupSamples rest g := rfl

theorem unpackGroup_length (b0 b1 b2 b3 b4 : Byte) : (unpackGroup b0 b1 b2 b3 b4).length = 4 := rfl

/-- Samples 4g to 4g + 3 are those of group g (R221). -/
theorem packed10_getD {groups g j : Nat} {bs : List Byte} (hlen : 5 * groups ≤ bs.length) (hg : g < groups)
    (hj : j < 4) : (packed10 groups bs).getD (4 * g + j) 0 = (groupSamples bs g).getD j 0 := by
  induction groups generalizing bs g with
  | zero => cases hg
  | succ groups ih =>
    match bs, hlen with
    | b0 :: b1 :: b2 :: b3 :: b4 :: rest, hlen =>
      rw [packed10]
      cases g with
      | zero =>
        rw [Nat.mul_zero, Nat.zero_add, List.getD_append _ _ _ _ hj]
        rfl
      | succ g =>
        have hindex : 4 * (g + 1) + j - 4 = 4 * g + j := by omega
        simp only [List.length_cons] at hlen
        rw [groupSamples_succ, List.getD_append_right _ _ _ _ (by rw [unpackGroup_length]; omega), unpackGroup_length,
          hindex]
        exact ih (by omega) (by omega)

/-- A byte and a two-bit field moved to bits 8 and 9 make a 10-bit sample (R221, R224). -/
theorem lane_lt (b b4 : Byte) {mask : Byte} {shift : Nat} (hmask : mask.toNat * 2 ^ shift < 2 ^ 10) :
    (b.setWidth 16 ||| ((b4 &&& mask).setWidth 16 <<< shift)).toNat < 2 ^ 10 := by
  have hlow : (b.setWidth 16).toNat < 2 ^ 10 := by
    rw [BitVec.toNat_setWidth]
    omega
  have hhigh : ((b4 &&& mask).setWidth 16 <<< shift).toNat < 2 ^ 10 :=
    calc ((b4 &&& mask).setWidth 16 <<< shift).toNat
      _ ≤ ((b4 &&& mask).setWidth 16).toNat <<< shift := by
        rw [BitVec.toNat_shiftLeft]
        exact Nat.mod_le _ _
      _ = (b4.toNat &&& mask.toNat) * 2 ^ shift := by
        rw [Nat.shiftLeft_eq, BitVec.toNat_setWidth_of_le (by decide), BitVec.toNat_and]
      _ ≤ mask.toNat * 2 ^ shift := Nat.mul_le_mul_right _ Nat.and_le_right
      _ < 2 ^ 10 := hmask
  rw [BitVec.toNat_or]
  exact Nat.or_lt_two_pow hlow hhigh

/-- The samples of a group are 10-bit values (R224). -/
theorem lt_of_mem_unpackGroup {b0 b1 b2 b3 b4 : Byte} {v : Word16} (hv : v ∈ unpackGroup b0 b1 b2 b3 b4) :
    v.toNat < 2 ^ 10 := by
  simp only [unpackGroup, List.mem_cons, List.not_mem_nil, or_false] at hv
  rcases hv with rfl | rfl | rfl | rfl
  · exact lane_lt b0 b4 (by decide)
  · exact lane_lt b1 b4 (by decide)
  · exact lane_lt b2 b4 (by decide)
  · exact lane_lt b3 b4 (by decide)

/-- The samples of a packed frame are 10-bit values (R224). -/
theorem lt_of_mem_packed10 {groups : Nat} {bs : List Byte} {v : Word16} (hv : v ∈ packed10 groups bs) :
    v.toNat < 2 ^ 10 := by
  induction groups, bs using packed10.induct with
  | case1 groups b0 b1 b2 b3 b4 rest ih =>
    rw [packed10, List.mem_append] at hv
    exact hv.elim lt_of_mem_unpackGroup ih
  | case2 groups bs hshort =>
    rw [packed10.eq_2 _ _ hshort] at hv
    cases hv

/-! ### Fixed16 -/

/-- le16 puts the second byte above the first (R12, R222). -/
theorem le16_eq_or (lo hi : Byte) : le16 lo hi = lo.setWidth 16 ||| (hi.setWidth 16 <<< 8) := by
  apply BitVec.eq_of_getLsbD_eq
  intro i hi16
  rw [le16, BitVec.getLsbD_append, BitVec.getLsbD_or, BitVec.getLsbD_shiftLeft]
  by_cases hlow : i < 8
  · simp [hlow, hi16]
  · have hlo : lo.getLsbD i = false := BitVec.getLsbD_of_ge lo i (Nat.le_of_not_lt hlow)
    have hsub : i - 8 < 16 := by omega
    simp [hlow, hi16, hlo, hsub]

/-- Sample k is the little-endian pair of bytes 2k and 2k + 1 (R222). -/
theorem fixed16_getD {spf k : Nat} {bs : List Byte} (hlen : 2 * spf ≤ bs.length) (hk : k < spf) :
    (fixed16 spf bs).getD k 0 = le16 (byteAt bs (2 * k)) (byteAt bs (2 * k + 1)) := by
  induction spf generalizing bs k with
  | zero => cases hk
  | succ spf ih =>
    match bs, hlen with
    | lo :: hi :: rest, hlen =>
      rw [fixed16]
      cases k with
      | zero => rfl
      | succ k =>
        simp only [List.length_cons] at hlen
        exact ih (by omega) (by omega)

/-! ### Frames of an accepted configuration -/

/-- The pack mode of an accepted configuration fixes its sample width, and its samples fill (packed) or fit (fixed) the
payload (R151). -/
theorem ParserConfig.packMode_of_validate_ok {maxSpf : Nat} {c : ParserConfig} (hv : c.validate maxSpf = .ok) :
    (c.pack = 0 ∧ c.bps = 10 ∧ 5 * (c.spf.toNat / 4) = c.payload.toNat) ∨
    (c.pack = 1 ∧ c.bps = 16 ∧ 2 * c.spf.toNat ≤ c.payload.toNat) := by
  have hgeo := (ParserConfig.of_validate_ok hv).2
  unfold ParserConfig.geometryOk at hgeo
  unfold ParserConfig.validate at hv
  split_ifs at hv with hpack _ _ hbps
  obtain ⟨hbps0, hbps1⟩ := not_or.1 hbps
  rcases hpack with h0 | h1
  · rw [if_pos h0, decide_eq_true_eq] at hgeo
    exact .inl ⟨h0, by_contra fun hne => hbps0 ⟨h0, hne⟩, by omega⟩
  · rw [if_neg (by rw [h1]; decide), decide_eq_true_eq] at hgeo
    exact .inr ⟨h1, by_contra fun hne => hbps1 ⟨h1, hne⟩, hgeo⟩

theorem unpackFrame_packed {c : ParserConfig} (h : c.pack = 0) (off : Nat) (d : List Byte) :
    unpackFrame c off d = some (packed10 (c.spf.toNat / 4) (samplePayload c off d)) :=
  if_pos h

theorem unpackFrame_fixed {c : ParserConfig} (h : c.pack = 1) (off : Nat) (d : List Byte) :
    unpackFrame c off d = some (fixed16 c.spf.toNat (samplePayload c off d)) := by
  rw [unpackFrame, if_neg (by rw [h]; decide), if_pos h]

/-- Settles O36, one pack mode at a time: the formula at an index, read through the payload. -/
theorem unpackedSamplesFollowTheFormulas : Obligations.UnpackedSamplesFollowTheFormulas := by
  intro maxSpf off c d hv hfit byte
  have hlen := samplePayload_length hv hfit
  rcases ParserConfig.packMode_of_validate_ok hv with ⟨hpack, hbps, hgeo⟩ | ⟨hpack, hbps, hgeo⟩
  · have hframe := unpackFrame_packed hpack off d
    refine ⟨_, hframe, unpackFrame_length hv hfit hframe, fun v hmem => ?_, fun _ g hg => ?_, fun h1 => ?_⟩
    · rw [hbps]
      exact lt_of_mem_packed10 hmem
    · have hbyte {k : Nat} (hk : k < 5) : byteAt (samplePayload c off d) (5 * g + k) = byte (5 * g + k) :=
        byteAt_samplePayload (by omega)
      have hgroup : groupSamples (samplePayload c off d) g = unpackGroup (byte (5 * g)) (byte (5 * g + 1))
          (byte (5 * g + 2)) (byte (5 * g + 3)) (byte (5 * g + 4)) := by
        have hfirst : byteAt (samplePayload c off d) (5 * g) = byte (5 * g) := hbyte (k := 0) (by decide)
        rw [groupSamples, hfirst, hbyte (k := 1) (by decide), hbyte (k := 2) (by decide), hbyte (k := 3) (by decide),
          hbyte (k := 4) (by decide)]
      have hsample {j : Nat} (hj : j < 4) := packed10_getD (hgeo.trans hlen.symm).le hg hj
      rw [hgroup] at hsample
      exact ⟨hsample (j := 0) (by decide), hsample (j := 1) (by decide), hsample (j := 2) (by decide),
        hsample (j := 3) (by decide)⟩
    · rw [hpack] at h1
      cases h1
  · have hframe := unpackFrame_fixed hpack off d
    refine ⟨_, hframe, unpackFrame_length hv hfit hframe, fun v _ => ?_, fun h0 => ?_, fun _ k hk => ?_⟩
    · rw [hbps]
      exact v.isLt
    · rw [hpack] at h0
      cases h0
    · rw [fixed16_getD (hgeo.trans hlen.ge) hk, byteAt_samplePayload (by omega), byteAt_samplePayload (by omega),
        le16_eq_or]

/-! ### The inverse of Packed10 -/

/-- Bits 8 and 9 of a sample, as the inverse of Packed10 takes them (R225). -/
def highBits (t : Word16) : Byte := ((t >>> 8) &&& 3).setWidth 8

/-- Byte 4 of a packed group: the high bits of its four samples (R225). -/
def packHigh (t0 t1 t2 t3 : Word16) : Byte :=
  highBits t0 ||| (highBits t1 <<< 2) ||| (highBits t2 <<< 4) ||| (highBits t3 <<< 6)

theorem highBits_getLsbD (t : Word16) (i : Nat) : (highBits t).getLsbD i = (decide (i < 2) && t.getLsbD (8 + i)) := by
  by_cases hi : i < 8
  · have hthree : (3 : Word16).getLsbD i = decide (i < 2) := by
      interval_cases i <;> rfl
    rw [highBits, BitVec.getLsbD_setWidth, BitVec.getLsbD_and, BitVec.getLsbD_ushiftRight, hthree, decide_eq_true hi,
      Bool.true_and, Bool.and_comm]
  · rw [BitVec.getLsbD_of_ge _ _ (Nat.le_of_not_lt hi), decide_eq_false (by omega), Bool.false_and]

/-- Each mask of Packed10 picks the high bits of its own sample out of byte 4 (R221, R225). -/
theorem packHigh_masked (t0 t1 t2 t3 : Word16) :
    packHigh t0 t1 t2 t3 &&& (0x03 : Byte) = highBits t0 <<< 0 ∧
    packHigh t0 t1 t2 t3 &&& (0x0C : Byte) = highBits t1 <<< 2 ∧
    packHigh t0 t1 t2 t3 &&& (0x30 : Byte) = highBits t2 <<< 4 ∧
    packHigh t0 t1 t2 t3 &&& (0xC0 : Byte) = highBits t3 <<< 6 := by
  refine ⟨?_, ?_, ?_, ?_⟩
  all_goals
    apply BitVec.eq_of_getLsbD_eq
    intro i hi
    simp only [packHigh, BitVec.getLsbD_and, BitVec.getLsbD_or, BitVec.getLsbD_shiftLeft, highBits_getLsbD]
    interval_cases i <;> simp

/-- From whichever place of byte 4 they are brought to bit 8, the high bits complete the low byte of a 10-bit sample
(R225). -/
theorem lane_of_highBits {t : Word16} (ht : t.toNat < 2 ^ 10) {place shift : Nat} (hplace : place ≤ 6)
    (hshift : place + shift = 8) :
    (t.setWidth 8).setWidth 16 ||| ((highBits t <<< place).setWidth 16 <<< shift) = t := by
  apply BitVec.eq_of_getLsbD_eq
  intro i hi
  simp only [BitVec.getLsbD_or, BitVec.getLsbD_setWidth, BitVec.getLsbD_shiftLeft, highBits_getLsbD]
  by_cases hlow : i < 8
  · have hbelow : i < shift ∨ i - shift < place := by omega
    rcases hbelow with hbelow | hbelow
    · simp [hbelow, hlow, hi]
    · simp [hbelow, hlow, hi]
  · have hbit : 8 + (i - shift - place) = i := by omega
    rw [hbit]
    by_cases hten : i < 10
    · have hin : i - shift < 16 ∧ i - shift < 8 ∧ ¬ i < shift ∧ ¬ i - shift < place ∧ i - shift - place < 2 := by
        omega
      simp [hlow, hi, hin]
    · have hzero : t.getLsbD i = false :=
        Nat.testBit_lt_two_pow (ht.trans_le (Nat.pow_le_pow_right (by decide) (Nat.le_of_not_lt hten)))
      simp [hlow, hzero]

/-- Settles O38: the masked fields of byte 4 are the samples' high bits, and these complete the low bytes. -/
theorem packedGroupRoundTrip : Obligations.PackedGroupRoundTrip := by
  intro t0 t1 t2 t3 h0 h1 h2 h3
  obtain ⟨hm0, hm1, hm2, hm3⟩ := packHigh_masked t0 t1 t2 t3
  change unpackGroup _ _ _ _ (packHigh t0 t1 t2 t3) = _
  rw [unpackGroup, hm0, hm1, hm2, hm3, lane_of_highBits h0 (by decide) rfl, lane_of_highBits h1 (by decide) rfl,
    lane_of_highBits h2 (by decide) rfl, lane_of_highBits h3 (by decide) rfl]

end Sys2Proof.Machine
end

section
/-!
The frame of the port commands (R242, R290, R317): whatever a command does, it replaces its own port and draws free
values, and every shared element stays as it is.
-/
namespace Sys2Proof.Machine

/-- `t` is `s` with port `p` replaced and free values drawn; everything else is as it was. -/
def State.OwnPortOnly (s : State) (p : Nat) (t : State) : Prop :=
  ∃ q d, t = { s.setPort p q with draws := d }

theorem State.ownPortOnly_setPort (s : State) (p : Nat) (q : Port) : s.OwnPortOnly p (s.setPort p q) :=
  ⟨q, s.draws, rfl⟩

/-- A port command whose body stays with its port stays with it in every step, or is the bus error of a port that
does not exist (R112, R246). -/
theorem portCommand_ownPortOnly {p : Nat} {op : BitVec 8} {arr : BitVec 2} {body : State → Port → Command → State}
    {s t : State} (hbody : ∀ q c, s.OwnPortOnly p (body s q c)) (h : portCommand p op arr body s = .next t) :
    t = s.busError ∨ s.OwnPortOnly p t := by
  rcases portCommand_cases h with ⟨-, ht⟩ | ⟨q, -, -, rfl⟩ | ⟨q, c, -, -, -, -, rfl⟩ | ⟨q, c, -, -, -, rfl⟩
  · exact .inl ht
  · exact .inr (s.ownPortOnly_setPort p _)
  · exact .inr (hbody q c)
  · exact .inr (s.ownPortOnly_setPort p _)

/-! ### The steps of the commands -/

theorem snapshotStep_ownPortOnly (p : Nat) (s : State) (q : Port) (c : Command) :
    s.OwnPortOnly p (snapshotStep p s q c) :=
  s.ownPortOnly_setPort p _

theorem getSampleStep_ownPortOnly (p : Nat) (s : State) (q : Port) (c : Command) :
    s.OwnPortOnly p (getSampleStep p s q c) := by
  unfold getSampleStep
  dsimp only
  split_ifs
  · exact s.ownPortOnly_setPort p _
  · exact s.ownPortOnly_setPort p _
  · exact ⟨_, _, rfl⟩

theorem envelopeScan_ownPortOnly (p : Nat) (s : State) (q : Port) (c : Command) (sc : Scan) :
    s.OwnPortOnly p (envelopeScan p s q c sc) := by
  rcases envelopeScan_cases p s q c sc with ⟨-, ht⟩ | ⟨-, -, ht⟩ | ⟨-, -, ht⟩
  · exact ht ▸ s.ownPortOnly_setPort p _
  · exact ⟨_, _, ht⟩
  · exact ⟨_, _, ht⟩

theorem envelopeStep_ownPortOnly (p : Nat) (s : State) (q : Port) (c : Command) :
    s.OwnPortOnly p (envelopeStep p s q c) := by
  unfold envelopeStep
  split
  · rcases envelopeBegin_cases p s q c with ⟨code, -, ht⟩ | ⟨-, -, ht⟩ | ⟨-, -, ht⟩
    · exact ht ▸ s.ownPortOnly_setPort p _
    · exact ht ▸ s.ownPortOnly_setPort p _
    · exact ht ▸ envelopeScan_ownPortOnly p s q c _
  · exact envelopeScan_ownPortOnly p s q c _

theorem emaStep_ownPortOnly (p : Nat) (arr : SeriesArr) (s : State) (q : Port) (c : Command) :
    s.OwnPortOnly p (emaStep p arr s q c) := by
  unfold emaStep
  dsimp only
  split_ifs
  · exact s.ownPortOnly_setPort p _
  · exact ⟨_, _, rfl⟩

theorem smaStep_ownPortOnly (p : Nat) (arr : SeriesArr) (s : State) (q : Port) (c : Command) :
    s.OwnPortOnly p (smaStep p arr s q c) := by
  unfold smaStep
  dsimp only
  split_ifs
  · exact s.ownPortOnly_setPort p _
  · exact s.ownPortOnly_setPort p _
  · exact ⟨_, _, rfl⟩

theorem hpfStep_ownPortOnly (p : Nat) (arr : SeriesArr) (s : State) (q : Port) (c : Command) :
    s.OwnPortOnly p (hpfStep p arr s q c) := by
  unfold hpfStep
  dsimp only
  split_ifs
  · exact s.ownPortOnly_setPort p _
  · exact s.ownPortOnly_setPort p _
  · split
    · exact s.ownPortOnly_setPort p _
    · exact ⟨_, _, rfl⟩

/-- HPF without its unit fails on its own port (R246, R286). -/
theorem execHpf_ownPortOnly {p : Nat} {arr : SeriesArr} {s t : State} (h : execHpf p arr s = .next t) :
    t = s.busError ∨ s.OwnPortOnly p t := by
  unfold execHpf at h
  split at h
  · split_ifs at h
    · cases h
      exact .inr (s.ownPortOnly_setPort p _)
    · exact portCommand_ownPortOnly (hpfStep_ownPortOnly p arr s) h
  · cases h
    exact .inl rfl

theorem exec_port_ownPortOnly {i : Instr} {p : Nat} {s t : State} (hi : i.port? = some p) (h : exec i s = .next t) :
    t = s.busError ∨ s.OwnPortOnly p t := by
  cases i with
  | snapshot r =>
    cases hi
    exact portCommand_ownPortOnly (snapshotStep_ownPortOnly p s) h
  | getSample r =>
    cases hi
    exact portCommand_ownPortOnly (getSampleStep_ownPortOnly p s) h
  | envelope r =>
    cases hi
    exact portCommand_ownPortOnly (envelopeStep_ownPortOnly p s) h
  | ema r arr =>
    cases hi
    exact portCommand_ownPortOnly (emaStep_ownPortOnly p arr s) h
  | sma r arr =>
    cases hi
    exact portCommand_ownPortOnly (smaStep_ownPortOnly p arr s) h
  | hpf r arr =>
    cases hi
    exact execHpf_ownPortOnly h
  | start | stop | cfgCommit | ingressPacket | ingressTimeout | ingressSrcError | ingressKind3 => cases hi

/-- Settles O15: the step is a bus error, or it replaces its own port and draws free values. -/
theorem portCommandsTouchOnlyTheirPort : Obligations.PortCommandsTouchOnlyTheirPort := by
  intro i p s t hi h
  rcases exec_port_ownPortOnly hi h with rfl | ⟨q, d, rfl⟩
  · exact ⟨⟨s.draws, .busError, rfl⟩, rfl, fun _ _ => rfl⟩
  · exact ⟨⟨d, s.busResp, rfl⟩, List.length_set, fun _ hp' => State.port?_setPort_other hp'⟩

end Sys2Proof.Machine
end

section
/-!
The write counter (R42, R241, R242): which move changes W, and to what.
-/
namespace Sys2Proof.Machine

/-- A packet step leaves W alone, except that the publish of a written frame releases the next one (R241). -/
theorem engineStep_wcount {s t : State} (h : engineStep s = .next t) :
    t.wcount = s.wcount ∨
    ∃ k frame w ch, s.engine = .publish k frame (.write w ch) ∧ s.active.spf.toNat ≤ ch ∧
      t = { s.publishW w with engine := .publish k frame .finish } := by
  rcases engineStep_frames h with hf | ⟨k, frame, w, ch, v, -, -, hf⟩ | ⟨k, frame, w, ch, he, -⟩
  · obtain ⟨-, -, hw, -⟩ := State.frames_eq_iff.1 hf
    exact .inl hw
  · obtain ⟨-, -, hw, -⟩ := State.frames_eq_iff.1 hf
    exact .inl hw
  · have hexec : exec k.instr s = .next t := (exec_packet_held (by rw [he]; rfl)).trans h
    rcases Nat.lt_or_ge ch s.active.spf.toNat with hch | hch
    · cases (exec_publish_word he hch).symm.trans hexec
      exact .inl rfl
    · cases (exec_publish_release he hch).symm.trans hexec
      exact .inr ⟨k, frame, w, ch, he, hch, rfl⟩

/-- The moves that change W: the engine's publish, an accepted commit and reset (R242). -/
theorem Move.wcount_cases {a : Action} {s t : State} (h : Move a s t) :
    t.wcount = s.wcount ∨
    (a = .engine ∧ ∃ k frame w ch, s.engine = .publish k frame (.write w ch) ∧ s.active.spf.toNat ≤ ch ∧
      t = { s.publishW w with engine := .publish k frame .finish }) ∨
    (∃ pick, a = .host (.write 0x040 8 0x03) pick ∧ s.engine = .stopped ∧ t = s.rebuild) ∨
    a = .reset := by
  cases h with
  | quiet h =>
    obtain ⟨hst, -⟩ := State.core_eq_iff.1 h
    obtain ⟨-, -, hw, -⟩ := State.frames_eq_iff.1 (State.store_eq_iff.1 hst).1
    exact .inl hw
  | port hq h =>
    obtain ⟨-, -, hw, -⟩ := State.frames_eq_iff.1 h.frames_eq
    exact .inl hw
  | commit ha he hidle hv => exact .inr (.inr (.inl ⟨_, ha, he, rfl⟩))
  | packet ha h => exact (engineStep_wcount h).imp_right fun hpub => .inl ⟨ha, hpub⟩
  | reset ha => exact .inr (.inr (.inr ha))
  | start | stop | exit | noPacket | sourceError | take => exact .inl rfl

/-- In a good state the append that is ready to publish has written exactly the slot of frame W (R43, R240). -/
theorem State.Inv.publish_ready {s : State} (hs : s.Inv) {k : Packet} {frame : List Word16} {w : Word64} {ch : Nat}
    (he : s.engine = .publish k frame (.write w ch)) (hch : s.active.spf.toNat ≤ ch) :
    w = s.wcount ∧ ch = s.active.spf.toNat := by
  have hgood := hs.engine_good
  rw [he] at hgood
  obtain ⟨-, hw, -, hle, -⟩ := hgood
  exact ⟨hw, Nat.le_antisymm hle hch⟩

/-- Settles O47: the step is a move, and the invariant says what a publish has written. -/
theorem writeCounterMovesByOneOrIsRebuilt : Obligations.WriteCounterMovesByOneOrIsRebuilt := by
  intro s t hs h
  rcases step_move h with rfl | ⟨a, rest, pick, resp, hsched, hm⟩
  · exact .inl rfl
  · rcases hm.wcount_cases with hw | ⟨rfl, k, frame, w, ch, he, hch, rfl⟩ | ⟨pick', rfl, he, rfl⟩ | rfl
    · exact .inl hw
    · obtain ⟨rfl, rfl⟩ := hs.publish_ready he hch
      exact .inr (.inl ⟨rfl, rfl, ⟨rest, hsched⟩, k, frame, he⟩)
    · exact .inr (.inr (.inl ⟨rfl, he, rfl, pick', rest, hsched⟩))
    · exact .inr (.inr (.inr ⟨rest, hsched⟩))

end Sys2Proof.Machine
end

section
/-!
How a step can fail to answer a next state (R240, R301, R308): W_OVERFLOW in the append that finds W at its limit, and
the refusal of bytes that are no ingress transaction (log 16).
-/
namespace Sys2Proof.Machine

/-- The engine is about to load W for an append, and W is at its limit (R240, R308). -/
def State.AppendAtLimit (s : State) : Prop :=
  s.wcount = BitVec.allOnes 64 ∧ ∃ k frame, s.engine = .publish k frame .loadW

/-- What `AppendAtLimit` asks for is part of the core. -/
theorem State.AppendAtLimit.of_core {s t : State} (ht : t.AppendAtLimit) (h : t.core = s.core) : s.AppendAtLimit := by
  obtain ⟨hst, -, -, he⟩ := State.core_eq_iff.1 h
  obtain ⟨-, -, hw, -⟩ := State.frames_eq_iff.1 (State.store_eq_iff.1 hst).1
  obtain ⟨hlimit, hload⟩ := ht
  exact ⟨hw ▸ hlimit, he ▸ hload⟩

/-! ### Instructions -/

theorem publishStep_loadW_at_limit {s : State} (h : s.wcount = BitVec.allOnes 64) (k : Packet) (frame : List Word16) :
    publishStep s k frame .loadW = .fault .wOverflow :=
  if_pos h

theorem publishStep_next_or_overflow {s : State} {k : Packet} {frame : List Word16} {stage : PubStage}
    (he : s.engine = .publish k frame stage) :
    (∃ t, publishStep s k frame stage = .next t) ∨
    publishStep s k frame stage = .fault .wOverflow ∧ s.AppendAtLimit := by
  cases stage with
  | countFrame | countBytes | finish => exact .inl ⟨_, rfl⟩
  | loadW =>
    by_cases hw : s.wcount = BitVec.allOnes 64
    · exact .inr ⟨publishStep_loadW_at_limit hw k frame, hw, k, frame, he⟩
    · exact .inl ⟨_, if_neg hw⟩
  | write w ch =>
    by_cases hch : ch < s.active.spf.toNat
    · exact .inl ⟨_, if_pos hch⟩
    · exact .inl ⟨_, if_neg hch⟩

theorem engineStep_next_or_overflow (s : State) :
    (∃ t, engineStep s = .next t) ∨ engineStep s = .fault .wOverflow ∧ s.AppendAtLimit := by
  unfold engineStep
  cases he : s.engine with
  | publish k frame stage => exact publishStep_next_or_overflow he
  | stopped | receive | demux | lengthCheck | unpack | drop => exact .inl ⟨_, rfl⟩

theorem execIngressPacket_next_or_overflow (tag : Word16) (caplen wirelen : Word32) (data : List Byte) (s : State) :
    (∃ t, execIngressPacket tag caplen wirelen data s = .next t) ∨
    execIngressPacket tag caplen wirelen data s = .fault .wOverflow ∧ s.AppendAtLimit := by
  unfold execIngressPacket
  split
  · split_ifs <;> exact .inl ⟨_, rfl⟩
  · split_ifs
    · exact engineStep_next_or_overflow s
    · exact .inl ⟨_, rfl⟩

theorem execStart_next (s : State) : ∃ t, execStart s = .next t := by
  unfold execStart
  split_ifs <;> exact ⟨_, rfl⟩

theorem execStop_next (s : State) : ∃ t, execStop s = .next t := by
  unfold execStop
  split_ifs <;> exact ⟨_, rfl⟩

theorem execCfgCommit_next (s : State) : ∃ t, execCfgCommit s = .next t := by
  unfold execCfgCommit
  split_ifs
  · exact ⟨_, rfl⟩
  · exact ⟨_, rfl⟩
  · split <;> exact ⟨_, rfl⟩

theorem execHpf_next (p : Nat) (arr : SeriesArr) (s : State) : ∃ t, execHpf p arr s = .next t := by
  unfold execHpf
  split
  · split_ifs
    · exact ⟨_, rfl⟩
    · exact portCommand_next p _ _ _ s
  · exact ⟨_, rfl⟩

theorem execIngressSrcError_next (s : State) : ∃ t, execIngressSrcError s = .next t := by
  unfold execIngressSrcError
  split_ifs <;> exact ⟨_, rfl⟩

/-- Every instruction answers a next state, or is the append that finds W at its limit (R301, R308). -/
theorem exec_next_or_overflow (i : Instr) (s : State) :
    (∃ t, exec i s = .next t) ∨ exec i s = .fault .wOverflow ∧ s.AppendAtLimit := by
  cases i with
  | start => exact .inl (execStart_next s)
  | stop => exact .inl (execStop_next s)
  | cfgCommit => exact .inl (execCfgCommit_next s)
  | snapshot p => exact .inl (portCommand_next p _ _ _ s)
  | getSample p => exact .inl (portCommand_next p _ _ _ s)
  | envelope p => exact .inl (portCommand_next p _ _ _ s)
  | ema p arr => exact .inl (portCommand_next p _ _ _ s)
  | sma p arr => exact .inl (portCommand_next p _ _ _ s)
  | hpf p arr => exact .inl (execHpf_next p arr s)
  | ingressPacket tag caplen wirelen data => exact execIngressPacket_next_or_overflow tag caplen wirelen data s
  | ingressTimeout => exact .inl ⟨_, exec_ingressTimeout s⟩
  | ingressSrcError => exact .inl (execIngressSrcError_next s)
  | ingressKind3 => exact .inl ⟨_, exec_ingressKind3 s⟩

/-! ### Steps -/

/-- A fetched step that is not refused, and whose instruction (if it has one) runs in a state with the core of `s`. -/
def Fetched.Runnable (s : State) : Fetched → Prop
  | .run _ u => u.core = s.core
  | .done _ => True
  | .refuse _ => False

theorem fetchCtrl_runnable (s : State) (v : Word64) : (fetchCtrl s v).Runnable s := by
  unfold fetchCtrl
  dsimp only
  split
  · exact rfl
  · trivial

theorem fetchPcmd_runnable (s : State) (p : Nat) (v : Word64) : (fetchPcmd s p v).Runnable s := by
  unfold fetchPcmd
  dsimp only
  split
  · trivial
  · split_ifs
    · trivial
    · split
      · exact rfl
      · trivial

theorem fetchWrite_runnable (s : State) (addr : Word32) (size : Nat) (v : Word64) :
    (fetchWrite s addr size v).Runnable s := by
  unfold fetchWrite
  split
  · trivial
  · exact fetchCtrl_runnable s v
  · exact fetchPcmd_runnable s _ v
  · trivial

theorem fetchOffer_runnable {bytes : List Byte} {i : Instr} (hd : decode .ingress bytes = .ok i) (s : State) :
    (fetchOffer s bytes).Runnable s := by
  unfold fetchOffer
  rw [hd]
  dsimp only
  split_ifs
  · exact rfl
  · trivial

theorem fetchOffer_malformed {bytes : List Byte} {e : DecodeError} (hd : decode .ingress bytes = .error e) (s : State) :
    fetchOffer s bytes = .refuse .malformedIngress := by
  rw [fetchOffer, hd]

theorem fetchEngine_runnable (s : State) : (fetchEngine s).Runnable s := by
  unfold fetchEngine
  split
  · exact rfl
  · split_ifs <;> trivial

theorem fetchPort_runnable (s : State) (p : Nat) : (fetchPort s p).Runnable s := by
  unfold fetchPort
  split
  · trivial
  · split
    · trivial
    · split
      · exact rfl
      · trivial

/-- Only offered bytes can be refused (log 16). -/
theorem fetch_runnable_or_malformed (a : Action) (s : State) :
    (fetch a s).Runnable s ∨
    ∃ bytes, a = .offer bytes ∧ (∀ i, decode .ingress bytes ≠ .ok i) ∧ fetch a s = .refuse .malformedIngress := by
  cases a with
  | host acc pick =>
    cases acc with
    | read addr size => exact .inl trivial
    | write addr size v => exact .inl (fetchWrite_runnable { s with pick := pick } addr size v)
  | offer bytes =>
    cases hd : decode .ingress bytes with
    | ok i => exact .inl (fetchOffer_runnable hd s)
    | error e => exact .inr ⟨bytes, rfl, by simp [hd], fetchOffer_malformed hd s⟩
  | engine => exact .inl (fetchEngine_runnable s)
  | port p pick => exact .inl (fetchPort_runnable { s with pick := pick } p)
  | reset => exact .inl trivial

theorem Fetched.Runnable.outcome {s : State} {f : Fetched} (h : f.Runnable s) :
    (∃ t, f.outcome = .next t) ∨ f.outcome = .fault .wOverflow ∧ s.AppendAtLimit := by
  cases f with
  | run i u => exact (exec_next_or_overflow i u).imp_right fun ⟨hfault, hlimit⟩ => ⟨hfault, hlimit.of_core h⟩
  | done u => exact .inl ⟨u, rfl⟩
  | refuse r => exact h.elim

/-- The three outcomes of a step, with what the fault and the refusal need. -/
theorem step_outcome (s : State) :
    (∃ t, step s = .next t) ∨
    (step s = .fault .wOverflow ∧ s.AppendAtLimit) ∨
    (step s = .refused .malformedIngress ∧
      ∃ bytes rest, s.schedule = .offer bytes :: rest ∧ ∀ i, decode .ingress bytes ≠ .ok i) := by
  cases hs : s.schedule with
  | nil => exact .inl ⟨s, step_idle hs⟩
  | cons a rest =>
    rw [step_of_schedule hs]
    rcases fetch_runnable_or_malformed a { s with schedule := rest } with hrun | ⟨bytes, rfl, hd, hf⟩
    · rcases hrun.outcome with hnext | ⟨hfault, hlimit⟩
      · exact .inl hnext
      · exact .inr (.inl ⟨hfault, hlimit.of_core rfl⟩)
    · exact .inr (.inr ⟨congrArg Fetched.outcome hf, bytes, rest, rfl, hd⟩)

/-- Settles O58. -/
theorem onlyTheCounterLimitFaults : Obligations.OnlyTheCounterLimitFaults := by
  refine ⟨fun k frame s he hw => ?_, fun s r h => ?_, fun s r h => ?_⟩
  · exact (exec_ingressPacket_publish he).trans (publishStep_loadW_at_limit hw k frame)
  · rcases step_outcome s with ⟨t, ht⟩ | ⟨ht, hw, hload⟩ | ⟨ht, -⟩
    · cases ht.symm.trans h
    · cases ht.symm.trans h
      exact ⟨rfl, hw, hload⟩
    · cases ht.symm.trans h
  · rcases step_outcome s with ⟨t, ht⟩ | ⟨ht, -⟩ | ⟨ht, hbytes⟩
    · cases ht.symm.trans h
    · cases ht.symm.trans h
    · cases ht.symm.trans h
      exact ⟨rfl, hbytes⟩

end Sys2Proof.Machine
end

section
/-!
What ENVELOPE needs of binary64 (R261, R262, R265, R268): rounding keeps the order of exact values, the sign and magnitude
of a rounded value, and the patterns that are finite and not below 0.
-/
namespace Sys2Proof.F64

/-! ### Rounding keeps the order -/

section
variable {n d n' d' : Nat}

/-- What is not above `c` times a fraction is not above `c` times a larger one. -/
theorem mul_le_of_fraction_le (hd : 0 < d) (h : n * d' ≤ n' * d) {c u : Nat} (hu : u * d ≤ c * n) : u * d' ≤ c * n' := by
  refine Nat.le_of_mul_le_mul_right ?_ hd
  calc u * d' * d = u * d * d' := Nat.mul_right_comm _ _ _
    _ ≤ c * n * d' := Nat.mul_le_mul_right _ hu
    _ = c * (n * d') := Nat.mul_assoc _ _ _
    _ ≤ c * (n' * d) := Nat.mul_le_mul_left _ h
    _ = c * n' * d := (Nat.mul_assoc _ _ _).symm

theorem mul_lt_of_fraction_le (hd' : 0 < d') (h : n * d' ≤ n' * d) {c u : Nat} (hu : u * d < c * n) :
    u * d' < c * n' := by
  refine Nat.lt_of_mul_lt_mul_right (a := d) ?_
  calc u * d' * d = u * d * d' := Nat.mul_right_comm _ _ _
    _ < c * n * d' := Nat.mul_lt_mul_of_pos_right hu hd'
    _ = c * (n * d') := Nat.mul_assoc _ _ _
    _ ≤ c * (n' * d) := Nat.mul_le_mul_left _ h
    _ = c * n' * d := (Nat.mul_assoc _ _ _).symm

theorem floorMag_mono (hd : 0 < d) (hd' : 0 < d') (h : n * d' ≤ n' * d) : floorMag n d ≤ floorMag n' d' := by
  obtain ⟨hlo, -, -⟩ := nearMag_spec n hd
  obtain ⟨-, hhi', -⟩ := nearMag_spec n' hd'
  have hscaled : magUnits (floorMag n d) * d' ≤ n' := by
    simpa using mul_le_of_fraction_le hd h (c := 1) (by simpa using hlo)
  have hunits : magUnits (floorMag n d) < magUnits (floorMag n' d' + 1) :=
    Nat.lt_of_mul_lt_mul_right (hscaled.trans_lt hhi')
  exact Nat.le_of_lt_succ (magUnits_strictMono.lt_iff_lt.1 hunits)

/-- Fractions with different floor patterns are rounded to either side of the larger floor; with the same floor, whatever
takes the smaller fraction up to the next pattern takes the larger one up. -/
theorem nearMag_mono (hd : 0 < d) (hd' : 0 < d') (h : n * d' ≤ n' * d) : nearMag n d ≤ nearMag n' d' := by
  obtain ⟨-, -, hnear⟩ := nearMag_spec n hd
  obtain ⟨-, -, hnear'⟩ := nearMag_spec n' hd'
  rcases (floorMag_mono hd hd' h).lt_or_eq with hlt | heq
  · rw [hnear, hnear']
    split <;> split <;> omega
  · rw [← heq] at hnear'
    simp only [← Nat.add_mul] at hnear hnear'
    have hle := mul_le_of_fraction_le hd h (c := 2) (u := magUnits (floorMag n d) + magUnits (floorMag n d + 1))
    have hlt := mul_lt_of_fraction_le hd' h (c := 2) (u := magUnits (floorMag n d) + magUnits (floorMag n d + 1))
    rw [hnear, hnear']
    split <;> split <;> omega

theorem roundMag_mono (hd : 0 < d) (hd' : 0 < d') (h : n * d' ≤ n' * d) : roundMag n d ≤ roundMag n' d' := by
  rw [roundMag_eq_min, roundMag_eq_min]
  exact min_le_min_right _ (nearMag_mono hd hd' h)

end

/-! ### Sign and magnitude of a rounded value -/

theorem sign_ofMag (s : Bool) {m : Nat} (h : m < 2 ^ 63) : sign (ofMag s m) = s := by
  have hpat := toNat_eq_sign_mag (ofMag s m)
  rw [toNat_ofMag s h, mag_ofMag s h] at hpat
  cases s <;> cases hs : sign (ofMag _ m) <;> simp [hs] at hpat ⊢

theorem sign_round (s : Bool) (n d : Nat) : sign (round s n d) = s := sign_ofMag s (roundMag_lt n d)

theorem mag_round (s : Bool) (n d : Nat) : mag (round s n d) = roundMag n d := mag_ofMag s (roundMag_lt n d)

theorem isNaN_round (s : Bool) (n d : Nat) : isNaN (round s n d) = false := by
  rw [isNaN, mag_round, roundMag_eq_min]
  simp

@[simp] theorem roundMag_zero (d : Nat) : roundMag 0 d = 0 := by
  simp [roundMag, roundQuot]

/-- Two exact values in order are in order once rounded. -/
theorem le_round_of_le {n d n' d' : Nat} (hd : 0 < d) (hd' : 0 < d') (h : n * d' ≤ n' * d) :
    le (round false n d) (round false n' d') = true := by
  rw [le_iff_key (isNaN_round _ _ _) (isNaN_round _ _ _), key, key, sign_round, sign_round, mag_round, mag_round]
  simpa using roundMag_mono hd hd' h

theorem le_ofRat_of_le {n d n' d' : Nat} (hd : 0 < d) (hd' : 0 < d') (h : n * d' ≤ n' * d) :
    le (ofRat false n d) (ofRat false n' d') = true := by
  refine le_round_of_le hd hd' ?_
  rw [Nat.mul_right_comm, Nat.mul_right_comm n']
  exact Nat.mul_le_mul_right _ h

/-- Settles O26: the bounds times the length bound the sum, and rounding keeps the order. -/
theorem roundedMeanLiesBetweenTheExtremes : Obligations.RoundedMeanLiesBetweenTheExtremes := by
  intro l lo hi hne _ hl
  have hlen : 0 < l.length := List.length_pos_iff.2 hne
  have hlo : l.length * lo ≤ l.sum := by simpa using l.card_nsmul_le_sum lo fun v hv => (hl v hv).1
  have hhi : l.sum ≤ l.length * hi := by simpa using l.sum_le_card_nsmul hi fun v hv => (hl v hv).2
  exact ⟨le_ofRat_of_le Nat.one_pos hlen (by rwa [Nat.mul_one, Nat.mul_comm]),
    le_ofRat_of_le hlen Nat.one_pos (by rwa [Nat.mul_one, Nat.mul_comm hi])⟩

/-! ### Values that are finite and not below 0 -/

/-- A finite value is below 0 where it is negative and not −0.0. -/
theorem lt_zero_iff {w : F64} (hw : isFinite w = true) : lt w 0 = true ↔ sign w = true ∧ mag w ≠ 0 := by
  have hzero : signedUnits 0 = 0 := by decide
  have hunits := units_eq_zero_iff w
  rw [lt_iff_signedUnits hw (by decide), hzero, signedUnits]
  cases sign w <;> simp
  omega

/-- A value is finite and not below 0 where its pattern is below that of +inf, or is the one of −0.0 (R261). -/
theorem isFinite_and_not_lt_zero_iff (w : F64) :
    (isFinite w = true ∧ lt w 0 = false) ↔ w.toNat < 0x7FF0000000000000 ∨ w = 0x8000000000000000 := by
  have hpat := toNat_eq_sign_mag w
  have hlt : isFinite w = true → (lt w 0 = false ↔ ¬(sign w = true ∧ mag w ≠ 0)) := fun hw => by
    rw [← Bool.not_eq_true, lt_zero_iff hw]
  have hminus : w = 0x8000000000000000 ↔ w.toNat = 0x8000000000000000 := BitVec.toNat_inj.symm
  have hmag := mag_lt w
  rw [and_congr_right hlt, isFinite_iff, hminus, infMag]
  cases hs : sign w <;> simp [hs] at hpat ⊢ <;> omega

end Sys2Proof.F64
end

section
/-!
The operands of ENVELOPE (R261), its span (R262), and the bins of a span (R263).
-/
namespace Sys2Proof.Machine

/-! ### The operand checks -/

theorem envelopeError_errChannel {P : Params} {spf : Nat} {c : Command} (hch : spf ≤ c.a0.toNat) :
    envelopeError P spf c = some .errChannel :=
  if_pos hch

theorem envelopeError_errBins {P : Params} {spf : Nat} {c : Command} (hch : c.a0.toNat < spf)
    (hbins : c.a3.toNat = 0 ∨ P.maxBins < c.a3.toNat) : envelopeError P spf c = some .errBins :=
  (if_neg (Nat.not_le_of_lt hch)).trans (if_pos hbins)

/-- With a good channel and bin count the window and the rate decide (R261). -/
theorem envelopeError_window {P : Params} {spf : Nat} {c : Command} (hch : c.a0.toNat < spf) (hpos : 0 < c.a3.toNat)
    (hmax : c.a3.toNat ≤ P.maxBins) :
    envelopeError P spf c =
      if !F64.isFinite c.a1 || !F64.isFinite c.a2 || F64.lt c.a1 0 || F64.lt c.a2 0 then some .errWindow else none :=
  have hbins : ¬(c.a3.toNat = 0 ∨ P.maxBins < c.a3.toNat) := by omega
  (if_neg (Nat.not_le_of_lt hch)).trans (if_neg hbins)

theorem exec_envelope_running {p : Nat} {s : State} {q : Port} {c : Command} (hq : s.ports[p]? = some q)
    (hc : q.cmd = some c) (hop : c.op = 0x03) (harr : c.arr = 0) :
    exec (.envelope p) s = .next (envelopeStep p s q c) :=
  portCommand_running hq hc hop harr

theorem exec_envelope_accepted {p : Nat} {s : State} {q : Port} {c : Command} (hq : s.ports[p]? = some q)
    (hc : q.cmd = some c) (hop : c.op = 0x03) (harr : c.arr = 0) (hw : c.work = .accepted) :
    exec (.envelope p) s = .next (envelopeBegin p s q c) := by
  rw [exec_envelope_running hq hc hop harr, envelopeStep, hw]

theorem envelopeBegin_error {s : State} {c : Command} {code : ResultCode}
    (h : envelopeError s.params s.active.spf.toNat c = some code) (p : Nat) (q : Port) :
    envelopeBegin p s q c = s.setPort p (q.fail code) := by
  rw [envelopeBegin, h]

/-- Settles O21, by what the checks answer for each class of operands. -/
theorem envelopeRefusesBadOperands : Obligations.EnvelopeRefusesBadOperands := by
  intro p s q c hq hc hop harr hw refusedWith good
  have hrefused {code : ResultCode} (h : envelopeError s.params s.active.spf.toNat c = some code) : refusedWith code :=
    (exec_envelope_accepted hq hc hop harr hw).trans (congrArg Host.Outcome.next (envelopeBegin_error h p q))
  have hwindow : (!F64.isFinite c.a1 || !F64.isFinite c.a2 || F64.lt c.a1 0 || F64.lt c.a2 0) = true ↔
      ¬(good c.a1 ∧ good c.a2) := by
    have hgood (w : Word64) : good w ↔ (F64.isFinite w = true ∧ F64.lt w 0 = false) :=
      (F64.isFinite_and_not_lt_zero_iff w).symm
    simp only [hgood, Bool.or_eq_true, Bool.not_eq_true', ← Bool.not_eq_true]
    tauto
  refine ⟨fun hch => hrefused (envelopeError_errChannel hch),
    fun hch hbins => hrefused (envelopeError_errBins hch hbins),
    fun hch hpos hmax hbad => hrefused ?_, fun hch hpos hmax h1 h2 => ?_⟩
  · rw [envelopeError_window hch hpos hmax, if_pos (hwindow.2 hbad)]
  · rw [envelopeError_window hch hpos hmax, if_neg fun hbad => hwindow.1 hbad ⟨h1, h2⟩]

/-! ### The span -/

theorem half_up_div_eq {u unit n : Nat} (hlo : 2 * n * unit ≤ 2 * u + unit) (hhi : 2 * u + unit < 2 * (n + 1) * unit) :
    (2 * u + unit) / (2 * unit) = n :=
  Nat.div_eq_of_lt_le (by rwa [Nat.mul_left_comm, ← Nat.mul_assoc]) (by rwa [Nat.mul_left_comm, ← Nat.mul_assoc])

/-- Settles O24. -/
theorem spanRoundsHalvesAwayFromZero : Obligations.SpanRoundsHalvesAwayFromZero := by
  refine fun avail ws fps => ⟨fun hinf => ?_, fun hfin n hlo hhi => ?_⟩
  · rw [envelopeSpan, hinf]
    exact if_pos (by decide)
  · have hround : roundHalfAway (F64.mul ws fps) = n := half_up_div_eq hlo hhi
    rw [envelopeSpan, F64.isInf_of_isFinite hfin, hround]
    rfl

/-! ### The bins -/

theorem binLo_mono (start span bins : Nat) : Monotone (binLo start span bins) := fun _ _ h =>
  Nat.add_le_add_left (Nat.div_le_div_right (Nat.mul_le_mul_right span h)) start

/-- A bin that is not forced ends where the next one starts (R263). -/
theorem binHi_of_lt {start span bins b : Nat} (h : binLo start span bins b < binLo start span bins (b + 1)) :
    binHi start span bins b = binLo start span bins (b + 1) :=
  if_neg h.ne'

/-- An empty bin is forced to one frame (R263). -/
theorem binHi_of_eq {start span bins b : Nat} (h : binLo start span bins (b + 1) = binLo start span bins b) :
    binHi start span bins b = binLo start span bins b + 1 :=
  if_pos h

theorem binLo_lt_end {start span bins b : Nat} (hspan : 0 < span) (hb : b < bins) :
    binLo start span bins b < start + span :=
  Nat.add_lt_add_left (Nat.div_lt_of_lt_mul (Nat.mul_lt_mul_of_pos_right hb hspan)) start

theorem binLo_bins (start span : Nat) {bins : Nat} (hbins : 0 < bins) : binLo start span bins bins = start + span := by
  rw [binLo, Nat.mul_div_cancel_left span hbins]

/-- A bin ends inside the span: where the next one starts, or after one frame that the span has. -/
theorem binHi_le_end {start span bins b : Nat} (hspan : 0 < span) (hb : b < bins) :
    binHi start span bins b ≤ start + span := by
  rcases (binLo_mono start span bins b.le_succ).lt_or_eq with hlt | heq
  · rw [binHi_of_lt hlt, ← binLo_bins start span (Nat.zero_lt_of_lt hb)]
    exact binLo_mono start span bins hb
  · rw [binHi_of_eq heq.symm]
    exact binLo_lt_end hspan hb

/-- A frame below the start of bin `n` lies in a bin before it. -/
theorem exists_bin_of_lt_binLo {start span bins j : Nat} (hj : start ≤ j) {n : Nat} (hn : j < binLo start span bins n) :
    ∃ b, b < n ∧ binLo start span bins b ≤ j ∧ j < binHi start span bins b := by
  induction n with
  | zero => exact absurd hn (Nat.not_lt_of_le (by simpa [binLo] using hj))
  | succ n ih =>
    rcases Nat.lt_or_ge j (binLo start span bins n) with hlt | hge
    · obtain ⟨b, hb, hin⟩ := ih hlt
      exact ⟨b, hb.trans n.lt_succ_self, hin⟩
    · exact ⟨n, n.lt_succ_self, hge, by rwa [binHi_of_lt (hge.trans_lt hn)]⟩

/-- Settles O23. -/
theorem binsCoverTheSpan : Obligations.BinsCoverTheSpan := by
  refine fun start span bins hspan hbins => ⟨fun b => ⟨rfl, binHi_of_lt, binHi_of_eq⟩, fun b hb => ?_, fun j hj hlt => ?_⟩
  · exact ⟨Nat.le_add_right _ _, binLo_lt_binHi _ _ _ _, binHi_le_end hspan hb, binLo_mono _ _ _ b.le_succ, binHi_of_lt,
      fun h => binHi_of_eq h.symm⟩
  · exact exists_bin_of_lt_binLo hj (binLo_bins start span hbins ▸ hlt)

end Sys2Proof.Machine
end

section
/-!
The time entries of ENVELOPE (R265, R266), and its degenerate case (R266).
-/
namespace Sys2Proof.Machine

/-! ### The time entries -/

/-- The magnitude of −ws·n/d is rounded to nearest; its sign is minus where that magnitude is not 0, and plus for an exact
zero (R265, R266). -/
theorem isNegRounded_negScaled (ws : F64) (n d : Nat) : isNegRounded (negScaled ws n d) (F64.units ws * n) d := by
  refine ⟨F64.mag_round _ _ _, fun hmag => ?_, fun hzero => ?_⟩
  · refine (F64.sign_round _ _ _).trans ?_
    have hn : F64.units ws * n ≠ 0 := fun h => hmag (by rw [h, F64.roundMag_zero])
    simp [negScaledSign, hn, hmag]
  · rw [negScaled, negScaledSign, hzero, F64.round, F64.roundMag_zero]
    rfl

/-! ### The degenerate envelope -/

theorem envelopeBegin_empty {s : State} {q : Port} {c : Command}
    (he : envelopeError s.params s.active.spf.toNat c = none)
    (hspan : envelopeSpan (min q.snap.toNat s.params.capacity) c.a1 c.a2 = 0) (p : Nat) :
    envelopeBegin p s q c = s.setPort p ((q.storeEmptyEnvelope c.a1 c.a3.toNat).finishEnvelope c.a3) := by
  rw [envelopeBegin, he]
  exact if_pos hspan

/-- A run of entries from 0 on: those of the list, and the old ones after it. -/
theorem Memory.read_writeFrom_zero {n : Nat} (m : Memory n) (vs : List (BitVec n)) :
    (∀ b, b < vs.length → (m.writeFrom 0 vs).read b = vs[b]?) ∧
    (∀ k, vs.length ≤ k → (m.writeFrom 0 vs).read k = m.read k) := by
  refine ⟨fun b hb => ?_, fun k hk => ?_⟩
  · rw [Memory.read_writeFrom, if_pos (by omega)]
    rfl
  · rw [Memory.read_writeFrom, if_neg (by omega)]

/-- Settles O22. -/
theorem envelopeOfNoFramesIsTheDegenerateCase : Obligations.EnvelopeOfNoFramesIsTheDegenerateCase := by
  intro p s q c hq hc hop harr hw he hspan
  have hexec := exec_envelope_accepted hq hc hop harr hw
  rw [envelopeBegin_empty he hspan] at hexec
  obtain ⟨hx, hxold⟩ := q.x.read_writeFrom_zero ((List.range c.a3.toNat).map (emptyTime c.a1 c.a3.toNat))
  have hzero (m : Memory 64) := m.read_writeFrom_zero (List.replicate c.a3.toNat (0 : F64))
  simp only [List.length_map, List.length_range, List.length_replicate] at hx hxold hzero
  refine ⟨_, _, _, _, hexec, fun b hb => ?_, fun k hk => ?_⟩
  · have hnew (m : Memory 64) : (m.writeFrom 0 (List.replicate c.a3.toNat 0)).read b = some 0 := by
      rw [(hzero m).1 b hb, List.getElem?_replicate_of_lt hb]
    have htime : (q.x.writeFrom 0 ((List.range c.a3.toNat).map (emptyTime c.a1 c.a3.toNat))).read b =
        some (emptyTime c.a1 c.a3.toNat b) := by
      rw [hx b hb, List.getElem?_map, List.getElem?_range hb]
      rfl
    exact ⟨⟨_, htime, isNegRounded_negScaled _ _ _⟩, hnew _, hnew _, hnew _⟩
  · exact ⟨hxold k hk, (hzero _).2 k hk, (hzero _).2 k hk, (hzero _).2 k hk⟩

end Sys2Proof.Machine
end

section
/-!
The scan of ENVELOPE with an idle writer (R260, R263 to R265, R267, R269): what its steps do, the extremes and the sum it
keeps inside a bin, and the entries it leaves behind bin by bin.
-/
namespace Sys2Proof.Machine

/-! ### The state of a scan -/

/-- The state in which port `p` is otherwise `q` and scans, at `sc`, for the command `c` (R59, R269). -/
def State.scanning (s : State) (p : Nat) (q : Port) (c : Command) (sc : Scan) : State :=
  s.setPort p { q with cmd := some { c with work := .scanning sc } }

/-- The scan before the first ring read of bin `b` (R260). -/
def Scan.atBin (start span bins b : Nat) : Scan where
  span := span
  bin := b
  frame := binLo start span bins b
  minMax := none
  sum := 0

theorem scanStart_eq_atBin (start span bins : Nat) : scanStart start span bins = Scan.atBin start span bins 0 := rfl

theorem Scan.nextBin_eq_atBin (sc : Scan) (start bins : Nat) :
    sc.nextBin start bins = Scan.atBin start sc.span bins (sc.bin + 1) := rfl

@[simp] theorem Scan.nextFrame_span (sc : Scan) (mm : Nat × Nat) (sum : Nat) : (sc.nextFrame mm sum).span = sc.span := rfl

@[simp] theorem Scan.nextFrame_bin (sc : Scan) (mm : Nat × Nat) (sum : Nat) : (sc.nextFrame mm sum).bin = sc.bin := rfl

@[simp] theorem Scan.nextFrame_frame (sc : Scan) (mm : Nat × Nat) (sum : Nat) :
    (sc.nextFrame mm sum).frame = sc.frame + 1 := rfl

theorem State.setPort_setPort (s : State) (p : Nat) (q q' : Port) : (s.setPort p q).setPort p q' = s.setPort p q' := by
  simp [State.setPort]

/-- A scan step neither reads nor keeps the command record it finds in the port. -/
theorem envelopeScan_scanning (p : Nat) (s : State) (q : Port) (c : Command) (sc : Scan) :
    envelopeScan p (s.scanning p q c sc) { q with cmd := some { c with work := .scanning sc } }
      { c with work := .scanning sc } sc = envelopeScan p s q c sc := by
  unfold envelopeScan State.scanning
  dsimp only
  split_ifs
  · exact s.setPort_setPort p _ _
  · exact State.setPort_setPort { s with draws := s.draws + s.ringDraws q (s.ringAddr sc.frame (operandU64 c.a0)) } p _ _
  · exact State.setPort_setPort { s with draws := s.draws + s.ringDraws q (s.ringAddr sc.frame (operandU64 c.a0)) } p _ _

/-- With no overwrite on record a written word is read as the ring holds it, and the read leaves no trace (R94). -/
theorem State.ringRead_of_idle {s : State} {q : Port} {i ch : Nat} (hpast : q.past = [])
    (hword : (s.ring.read (s.ringAddr i ch)).isSome) :
    (s.ringValue q (s.ringAddr i ch)).toNat = s.frameSample i ch ∧ s.ringDraws q (s.ringAddr i ch) = 0 ∧
      s.afterRingRead q (s.ringAddr i ch) = q := by
  obtain ⟨v, hv⟩ := Option.isSome_iff_exists.1 hword
  have habsent : ∀ e ∈ q.past, e.1 ≠ s.ringAddr i ch := by simp [hpast]
  obtain ⟨hvalue, hdraws⟩ := State.ringValue_of_chosen ((State.ringChosen_of_not_overwritten habsent).trans hv)
  refine ⟨?_, hdraws, ?_⟩
  · rw [hvalue, State.frameSample, hv]
    rfl
  · rw [State.afterRingRead, keepNewer_of_absent habsent]

/-! ### What a bin's scan keeps -/

theorem State.binSamples_length (s : State) (ch start span bins b : Nat) :
    (s.binSamples ch start span bins b).length = binHi start span bins b - binLo start span bins b := by
  simp [State.binSamples]

/-- The running minimum and maximum of the values read so far (R260). -/
def Extremes : Option (Nat × Nat) → List Nat → Prop
  | none, l => l = []
  | some (mn, mx), l => mn ∈ l ∧ mx ∈ l ∧ ∀ v ∈ l, mn ≤ v ∧ v ≤ mx

theorem extremes_widen {r : Option (Nat × Nat)} {l : List Nat} (h : Extremes r l) (v : Nat) :
    Extremes (some (widen r v)) (l ++ [v]) := by
  match r, h with
  | none, h =>
    cases h
    simp [Extremes, widen]
  | some (mn, mx), ⟨hmn, hmx, hall⟩ =>
    refine ⟨?_, ?_, fun u hu => ?_⟩
    · rcases min_choice mn v with h | h <;> simp [h, hmn]
    · rcases max_choice mx v with h | h <;> simp [h, hmx]
    · rcases List.mem_append.1 hu with hu | hu
      · have := hall u hu
        omega
      · cases List.mem_singleton.1 hu
        omega

/-! ### The steps of the scan -/

section
variable {s : State} {p : Nat} {q0 q : Port} {c : Command} (hport : s.port? p = some q0) (hop : c.op = 0x03)
  (harr : c.arr = 0)
include hport hop harr

theorem exec_envelope_scanning (q : Port) (sc : Scan) :
    exec (.envelope p) (s.scanning p q c sc) = .next (envelopeScan p s q c sc) :=
  (exec_envelope_running (c := { c with work := .scanning sc }) (State.port?_setPort_same hport) rfl hop harr).trans
    (congrArg Host.Outcome.next (envelopeScan_scanning p s q c sc))

/-- After the last bin the scan's next step completes the command (R260). -/
theorem exec_envelope_finish (q : Port) {sc : Scan} (hbin : c.a3.toNat ≤ sc.bin) :
    exec (.envelope p) (s.scanning p q c sc) = .next (s.setPort p (q.finishEnvelope c.a3)) :=
  (exec_envelope_scanning hport hop harr q sc).trans (congrArg Host.Outcome.next (if_pos hbin))

/-- A read that is not the last of its bin (R260). -/
theorem exec_envelope_inside {sc : Scan} (hpast : q.past = [])
    (hword : (s.ring.read (s.ringAddr sc.frame c.a0.toNat)).isSome) (hbin : sc.bin < c.a3.toNat)
    (hframe : sc.frame + 1 < binHi (q.snap.toNat - sc.span) sc.span c.a3.toNat sc.bin) :
    exec (.envelope p) (s.scanning p q c sc) =
      .next (s.scanning p q c (sc.nextFrame (widen sc.minMax (s.frameSample sc.frame c.a0.toNat))
        (sc.sum + s.frameSample sc.frame c.a0.toNat))) := by
  obtain ⟨hvalue, hdraws, hafter⟩ := State.ringRead_of_idle hpast hword
  rw [exec_envelope_scanning hport hop harr q sc]
  refine congrArg Host.Outcome.next ((if_neg (Nat.not_le_of_lt hbin)).trans ((if_pos hframe).trans ?_))
  rw [operandU64, hvalue, hdraws, hafter]
  rfl

/-- The last read of a bin stores the bin's entries (R260). -/
theorem exec_envelope_last {sc : Scan} (hpast : q.past = [])
    (hword : (s.ring.read (s.ringAddr sc.frame c.a0.toNat)).isSome) (hbin : sc.bin < c.a3.toNat)
    (hframe : binHi (q.snap.toNat - sc.span) sc.span c.a3.toNat sc.bin ≤ sc.frame + 1) :
    let start := q.snap.toNat - sc.span
    let mm := widen sc.minMax (s.frameSample sc.frame c.a0.toNat)
    exec (.envelope p) (s.scanning p q c sc) =
      .next (s.scanning p
        (q.storeBin c.a1 c.a3.toNat sc.bin (binLo start sc.span c.a3.toNat sc.bin)
          (binHi start sc.span c.a3.toNat sc.bin) mm.1 mm.2 (sc.sum + s.frameSample sc.frame c.a0.toNat))
        c (Scan.atBin start sc.span c.a3.toNat (sc.bin + 1))) := by
  obtain ⟨hvalue, hdraws, hafter⟩ := State.ringRead_of_idle hpast hword
  rw [exec_envelope_scanning hport hop harr q sc]
  refine congrArg Host.Outcome.next
    ((if_neg (Nat.not_le_of_lt hbin)).trans ((if_neg (Nat.not_lt_of_le hframe)).trans ?_))
  rw [operandU64, hvalue, hdraws, hafter, Scan.nextBin_eq_atBin]
  rfl

/-- The rest of a bin, `n` reads and the last one: the extremes and the sum cover the frames read before (`l`) and the rest. -/
theorem execRun_restOfBin {sc : Scan} {l : List Nat} {n : Nat} (hpast : q.past = []) (hbin : sc.bin < c.a3.toNat)
    (hend : binHi (q.snap.toNat - sc.span) sc.span c.a3.toNat sc.bin = sc.frame + (n + 1))
    (hwords : ∀ i, sc.frame ≤ i → i < sc.frame + (n + 1) → (s.ring.read (s.ringAddr i c.a0.toNat)).isSome)
    (hmm : Extremes sc.minMax l) (hsum : sc.sum = l.sum) :
    let start := q.snap.toNat - sc.span
    let samples := l ++ (List.range' sc.frame (n + 1)).map (fun j => s.frameSample j c.a0.toNat)
    ∃ mn mx, Extremes (some (mn, mx)) samples ∧
      execRun (.envelope p) (n + 1) (s.scanning p q c sc) =
        .next (s.scanning p
          (q.storeBin c.a1 c.a3.toNat sc.bin (binLo start sc.span c.a3.toNat sc.bin)
            (binHi start sc.span c.a3.toNat sc.bin) mn mx samples.sum)
          c (Scan.atBin start sc.span c.a3.toNat (sc.bin + 1))) := by
  induction n generalizing sc l with
  | zero =>
    have hlast := exec_envelope_last hport hop harr hpast (hwords sc.frame le_rfl (by omega)) hbin hend.le
    refine ⟨_, _, extremes_widen hmm _, ?_⟩
    rw [execRun_succ_of_next hlast, List.sum_append, ← hsum]
    rfl
  | succ n ih =>
    have hstep := exec_envelope_inside hport hop harr hpast (hwords sc.frame le_rfl (by omega)) hbin (by omega)
    have hnext := ih (sc := sc.nextFrame (widen sc.minMax (s.frameSample sc.frame c.a0.toNat))
        (sc.sum + s.frameSample sc.frame c.a0.toNat)) hbin
      (hend.trans (by rw [Scan.nextFrame_frame]; omega))
      (fun i hlo hhi => hwords i (Nat.le_of_succ_le hlo) (by rw [Scan.nextFrame_frame] at hhi; omega))
      (extremes_widen hmm _) (by rw [List.sum_append, ← hsum]; rfl)
    rw [execRun_succ_of_next hstep, List.range'_succ]
    simpa using hnext

/-- A whole bin: one step for each of its samples, and the entries of their extremes and sum (R260, R263, R269). -/
theorem execRun_bin {start span b : Nat} (hpast : q.past = []) (hstart : start = q.snap.toNat - span)
    (hb : b < c.a3.toNat)
    (hwords : ∀ i, i < binHi start span c.a3.toNat b → (s.ring.read (s.ringAddr i c.a0.toNat)).isSome) :
    let samples := s.binSamples c.a0.toNat start span c.a3.toNat b
    ∃ mn mx, Extremes (some (mn, mx)) samples ∧
      execRun (.envelope p) samples.length (s.scanning p q c (Scan.atBin start span c.a3.toNat b)) =
        .next (s.scanning p
          (q.storeBin c.a1 c.a3.toNat b (binLo start span c.a3.toNat b) (binHi start span c.a3.toNat b) mn mx samples.sum)
          c (Scan.atBin start span c.a3.toNat (b + 1))) := by
  subst hstart
  obtain ⟨n, hend⟩ := Nat.exists_eq_add_of_lt (binLo_lt_binHi (q.snap.toNat - span) span c.a3.toNat b)
  have hrun := execRun_restOfBin hport hop harr (sc := Scan.atBin (q.snap.toNat - span) span c.a3.toNat b) (l := [])
    hpast hb hend (fun i _ hi => hwords i (hi.trans_eq hend.symm)) rfl rfl
  have hcount : binHi (q.snap.toNat - span) span c.a3.toNat b - binLo (q.snap.toNat - span) span c.a3.toNat b = n + 1 := by
    omega
  dsimp only
  rw [State.binSamples_length, State.binSamples, hcount]
  exact hrun

end

/-! ### The entries of the bins scanned -/

/-- The entries of bin `b` in a port are the extremes and the once-rounded mean of its samples, and its time (R260, R264,
R265). -/
def State.BinExact (s : State) (c : Command) (start span b : Nat) (q : Port) : Prop :=
  let bins := c.a3.toNat
  let samples := s.binSamples c.a0.toNat start span bins b
  (∃ v, q.x.read b = some v ∧ isNegRounded v (F64.units c.a1 * (2 * bins - (2 * b + 1))) (2 * bins)) ∧
  q.mean.read b = some (F64.ofRat false samples.sum samples.length) ∧
  ∃ lo hi, lo ∈ samples ∧ hi ∈ samples ∧ (∀ v ∈ samples, lo ≤ v ∧ v ≤ hi) ∧
    q.ymin.read b = some (F64.ofNat lo) ∧ q.ymax.read b = some (F64.ofNat hi)

/-- Two ports hold the same entry `k` of every array. -/
def Port.SameEntries (q' q : Port) (k : Nat) : Prop :=
  q'.x.read k = q.x.read k ∧ q'.ymin.read k = q.ymin.read k ∧ q'.ymax.read k = q.ymax.read k ∧
  q'.mean.read k = q.mean.read k

/-- `q'` is `q` with the entries of the first `b` bins stored. -/
structure State.Filled (s : State) (c : Command) (start span b : Nat) (q q' : Port) : Prop where
  rest : q' = { q with x := q'.x, ymin := q'.ymin, ymax := q'.ymax, mean := q'.mean }
  new : ∀ k, k < b → s.BinExact c start span k q'
  old : ∀ k, b ≤ k → q'.SameEntries q k

theorem State.filled_zero (s : State) (c : Command) (start span : Nat) (q : Port) : s.Filled c start span 0 q q where
  rest := rfl
  new _ hk := absurd hk (Nat.not_lt_zero _)
  old _ _ := ⟨rfl, rfl, rfl, rfl⟩

theorem Port.storeBin_sameEntries (q : Port) (ws : F64) (bins b lo hi mn mx sum : Nat) {k : Nat} (hk : k ≠ b) :
    (q.storeBin ws bins b lo hi mn mx sum).SameEntries q k :=
  ⟨Memory.read_write_other _ _ _ _ hk, Memory.read_write_other _ _ _ _ hk, Memory.read_write_other _ _ _ _ hk,
    Memory.read_write_other _ _ _ _ hk⟩

theorem Port.SameEntries.trans {q q' q'' : Port} {k : Nat} (h : q''.SameEntries q' k) (h' : q'.SameEntries q k) :
    q''.SameEntries q k := by
  obtain ⟨hx, hmin, hmax, hmean⟩ := h
  obtain ⟨hx', hmin', hmax', hmean'⟩ := h'
  exact ⟨hx.trans hx', hmin.trans hmin', hmax.trans hmax', hmean.trans hmean'⟩

theorem State.BinExact.of_sameEntries {s : State} {c : Command} {start span b : Nat} {q q' : Port}
    (h : s.BinExact c start span b q) (hsame : q'.SameEntries q b) : s.BinExact c start span b q' := by
  obtain ⟨hx, hmin, hmax, hmean⟩ := hsame
  unfold State.BinExact at *
  rwa [hx, hmin, hmax, hmean]

/-- The entries a bin's scan stores are exact (R260, R264, R265). -/
theorem State.storeBin_binExact {s : State} {c : Command} {start span b mn mx : Nat}
    (h : Extremes (some (mn, mx)) (s.binSamples c.a0.toNat start span c.a3.toNat b)) (q : Port) :
    s.BinExact c start span b
      (q.storeBin c.a1 c.a3.toNat b (binLo start span c.a3.toNat b) (binHi start span c.a3.toNat b) mn mx
        (s.binSamples c.a0.toNat start span c.a3.toNat b).sum) := by
  obtain ⟨hmn, hmx, hall⟩ := h
  refine ⟨⟨_, Memory.read_write_same _ _ _, isNegRounded_negScaled _ _ _⟩, ?_,
    mn, mx, hmn, hmx, hall, Memory.read_write_same _ _ _, Memory.read_write_same _ _ _⟩
  rw [State.binSamples_length]
  exact Memory.read_write_same _ _ _

theorem State.Filled.storeBin {s : State} {c : Command} {start span b mn mx : Nat} {q q' : Port}
    (hf : s.Filled c start span b q q')
    (h : Extremes (some (mn, mx)) (s.binSamples c.a0.toNat start span c.a3.toNat b)) :
    s.Filled c start span (b + 1) q
      (q'.storeBin c.a1 c.a3.toNat b (binLo start span c.a3.toNat b) (binHi start span c.a3.toNat b) mn mx
        (s.binSamples c.a0.toNat start span c.a3.toNat b).sum) where
  rest := by
    rw [hf.rest]
    rfl
  new k hk := by
    rcases Nat.lt_succ_iff_lt_or_eq.1 hk with hk | rfl
    · exact (hf.new k hk).of_sameEntries (Port.storeBin_sameEntries _ _ _ _ _ _ _ _ _ hk.ne)
    · exact State.storeBin_binExact h q'
  old k hk :=
    (Port.storeBin_sameEntries _ _ _ _ _ _ _ _ _ (Nat.ne_of_gt hk)).trans (hf.old k (Nat.le_of_succ_le hk))

/-! ### The whole scan -/

/-- The first `b` bins: one step for each of their samples, and their entries stored. -/
theorem execRun_bins {s : State} {p : Nat} {q : Port} {c : Command} {span : Nat} (hport : s.port? p = some q)
    (hop : c.op = 0x03) (harr : c.arr = 0) (hpast : q.past = []) (hpos : 0 < span) (hspan : span ≤ q.snap.toNat)
    (hwords : ∀ i, i < q.snap.toNat → (s.ring.read (s.ringAddr i c.a0.toNat)).isSome) {b : Nat} (hb : b ≤ c.a3.toNat) :
    let start := q.snap.toNat - span
    let reads := ((List.range b).map (fun k => (s.binSamples c.a0.toNat start span c.a3.toNat k).length)).sum
    ∃ q', s.Filled c start span b q q' ∧
      execRun (.envelope p) reads (s.scanning p q c (Scan.atBin start span c.a3.toNat 0)) =
        .next (s.scanning p q' c (Scan.atBin start span c.a3.toNat b)) := by
  intro start
  induction b with
  | zero => exact ⟨q, s.filled_zero c start span q, rfl⟩
  | succ b ih =>
    obtain ⟨q', hfill, hrun⟩ := ih (Nat.le_of_succ_le hb)
    have hpast' : q'.past = [] := by rw [hfill.rest, hpast]
    have hsnap' : q'.snap = q.snap := by rw [hfill.rest]
    have hend : binHi start span c.a3.toNat b ≤ q.snap.toNat :=
      (binHi_le_end hpos hb).trans (Nat.sub_add_cancel hspan).le
    obtain ⟨mn, mx, hext, hbin⟩ := execRun_bin hport hop harr hpast' (hsnap' ▸ rfl : start = q'.snap.toNat - span) hb
      fun i hi => hwords i (hi.trans_le hend)
    refine ⟨_, hfill.storeBin hext, ?_⟩
    rw [List.range_succ, List.map_append, List.sum_append, execRun_add hrun]
    simpa using hbin

/-- The first step after an acceptance with a span of at least one frame is the first step of the scan (R269). -/
theorem exec_envelope_first {s : State} {p : Nat} {q : Port} {c : Command} (hq : s.ports[p]? = some q)
    (hc : q.cmd = some c) (hop : c.op = 0x03) (harr : c.arr = 0) (hw : c.work = .accepted)
    (he : envelopeError s.params s.active.spf.toNat c = none)
    (hpos : 0 < envelopeSpan (min q.snap.toNat s.params.capacity) c.a1 c.a2) :
    let span := envelopeSpan (min q.snap.toNat s.params.capacity) c.a1 c.a2
    exec (.envelope p) s =
      exec (.envelope p) (s.scanning p q c (Scan.atBin (q.snap.toNat - span) span c.a3.toNat 0)) := by
  intro span
  rw [exec_envelope_accepted hq hc hop harr hw, exec_envelope_scanning hq hop harr, envelopeBegin, he,
    ← scanStart_eq_atBin]
  exact congrArg Host.Outcome.next (if_neg hpos.ne')

theorem execRun_succ_congr {i : Instr} {s t : State} (h : exec i s = exec i t) (n : Nat) :
    execRun i (n + 1) s = execRun i (n + 1) t := by
  rw [execRun, h, execRun]

/-- Settles O25: the scan bin by bin, from the acceptance to its completion. -/
theorem envelopeOfAnIdleWriterIsExact : Obligations.EnvelopeOfAnIdleWriterIsExact := by
  intro p s q c hs hq hc hop harr hw hpast he bins span start hpos reads
  have hgood := hs.good_of_port? hq
  obtain ⟨hch, -⟩ := bounds_of_envelopeError_none he
  have hspan : span ≤ q.snap.toNat := (envelopeSpan_le _ _ _).trans (min_le_left _ _)
  have hwords (i : Nat) (hi : i < q.snap.toNat) : (s.ring.read (s.ringAddr i c.a0.toNat)).isSome :=
    hs.written_below (hi.trans_le hgood.snap_le) hch
  obtain ⟨q', hfill, hrun⟩ := execRun_bins hq hop harr hpast hpos hspan hwords (b := bins) le_rfl
  refine ⟨q'.x, q'.ymin, q'.ymax, q'.mean, ?_, hfill.new, hfill.old⟩
  calc execRun (.envelope p) (reads + 1) s
    _ = execRun (.envelope p) (reads + 1) (s.scanning p q c (Scan.atBin start span bins 0)) :=
      execRun_succ_congr (exec_envelope_first hq hc hop harr hw he hpos) reads
    _ = execRun (.envelope p) 1 (s.scanning p q' c (Scan.atBin start span bins bins)) := execRun_add hrun 1
    _ = .next (s.setPort p (q'.finishEnvelope c.a3)) :=
      execRun_succ_of_next (exec_envelope_finish hq hop harr q' le_rfl) 0
    _ = _ := by
      rw [hfill.rest]
      rfl

end Sys2Proof.Machine
end

section
/-!
The smoothers EMA, SMA and HPF (R280, R283, R286, R287): the lists their loops compute, as values indexed by the entry
they are stored at, and their steps.
-/
namespace Sys2Proof.Machine

/-! ### Runs of entries -/

theorem seriesPart_eq_range' (s : State) (p : Nat) (q : Port) (arr : SeriesArr) (n : Nat) :
    s.seriesPart p q arr n = (List.range' 0 n).map (s.seriesEntry p q arr) := by
  rw [State.seriesPart, List.range_eq_range']

theorem seriesPart_succ (s : State) (p : Nat) (q : Port) (arr : SeriesArr) (n : Nat) :
    s.seriesPart p q arr (n + 1) =
      s.seriesEntry p q arr 0 :: (List.range' 1 n).map (s.seriesEntry p q arr) := by
  rw [seriesPart_eq_range', List.range'_succ, List.map_cons]

/-- The draws of a run of outputs are numbered from its first entry on (log 12). -/
theorem settleAll_map_range' (d k n : Nat) (f : Nat → F64) :
    settleAll d ((List.range' k n).map f) = (List.range' k n).map (fun i => F64.settle (d + (i - k)) (f i)) := by
  induction n generalizing d k with
  | zero => rfl
  | succ n ih =>
    simp only [List.range'_succ, List.map_cons, settleAll, ih, Nat.sub_self, Nat.add_zero, List.cons.injEq, true_and]
    refine List.map_congr_left fun i hi => ?_
    obtain ⟨hk, -⟩ := List.mem_range'_1.1 hi
    congr 1
    omega

theorem Memory.read_writeFrom_map_range' (m : Memory 64) (k n a : Nat) (f : Nat → F64) :
    (m.writeFrom k ((List.range' k n).map f)).read a = if k ≤ a ∧ a < k + n then some (f a) else m.read a := by
  rw [Memory.read_writeFrom, List.length_map, List.length_range']
  refine ite_congr rfl (fun ha => ?_) (fun _ => rfl)
  have hget : (List.range' k n)[a - k]? = some a := by
    rw [List.getElem?_range' (by omega)]
    congr 1
    omega
  rw [List.getElem?_map, hget, Option.map_some]

/-- The stored outputs of a filter that writes `n` entries from `k` on, its first draw being `d` (log 12). -/
theorem Memory.read_writeFrom_settleAll (m : Memory 64) (d k n a : Nat) (f : Nat → F64) :
    (m.writeFrom k (settleAll d ((List.range' k n).map f))).read a =
      if k ≤ a ∧ a < k + n then some (F64.settle (d + (a - k)) (f a)) else m.read a := by
  rw [settleAll_map_range', Memory.read_writeFrom_map_range']

/-! ### EMA -/

/-- The loop of EMA computes the solution of its recurrence (R280). -/
theorem emaLoop_eq_run {alpha : F64} {old run : Nat → F64}
    (hrun : ∀ i, run (i + 1) =
      F64.add (F64.mul alpha (old (i + 1))) (F64.mul (F64.sub F64.one alpha) (run i))) (k n : Nat) :
    emaLoop alpha (run k) ((List.range' (k + 1) n).map old) = (List.range' (k + 1) n).map run := by
  induction n generalizing k with
  | zero => rfl
  | succ n ih => simp only [List.range'_succ, List.map_cons, emaLoop, ← hrun k, ih]

theorem emaOutputs_seriesPart {alpha : F64} {s : State} {p : Nat} {q : Port} {arr : SeriesArr} {run : Nat → F64}
    (hzero : run 0 = s.seriesEntry p q arr 0)
    (hrun : ∀ i, run (i + 1) =
      F64.add (F64.mul alpha (s.seriesEntry p q arr (i + 1))) (F64.mul (F64.sub F64.one alpha) (run i))) (n : Nat) :
    emaOutputs alpha (s.seriesPart p q arr n) = (List.range' 1 (n - 1)).map run := by
  cases n with
  | zero => rfl
  | succ n =>
    rw [seriesPart_succ, ← hzero, emaOutputs, emaLoop_eq_run hrun, Nat.add_sub_cancel]

theorem exec_ema_running {p : Nat} {arr : SeriesArr} {s : State} {q : Port} {c : Command} (hq : s.ports[p]? = some q)
    (hc : q.cmd = some c) (hop : c.op = 0x10) (harr : c.arr = arrField arr) :
    exec (.ema p arr) s = .next (emaStep p arr s q c) :=
  portCommand_running hq hc hop harr

theorem emaStep_errLength {s : State} {c : Command} (h : s.params.maxBins < c.a2.toNat) (p : Nat) (arr : SeriesArr)
    (q : Port) : emaStep p arr s q c = s.setPort p (q.fail .errLength) :=
  if_pos h

theorem emaStep_outputs {s : State} {c : Command} (h : c.a2.toNat ≤ s.params.maxBins) (p : Nat) (arr : SeriesArr)
    (q : Port) :
    let outs := emaOutputs (emaAlpha s.params c.a0 c.a1) (s.seriesPart p q arr c.a2.toNat)
    emaStep p arr s q c = { s with draws := s.draws + (c.a2.toNat - 1) }.setPort p
      (q.storeSeries arr 1 (settleAll s.draws outs)).complete := by
  intro outs
  have hlen : outs.length = c.a2.toNat - 1 := by rw [emaOutputs_length, seriesPart_length]
  rw [← hlen]
  exact if_neg (Nat.not_lt_of_le h)

/-- Settles O29: the loop's outputs are the recurrence's values from entry 1 on. -/
theorem emaFollowsItsRecurrence : Obligations.EmaFollowsItsRecurrence := by
  intro p arr s q c hq hc hop harr n old alpha
  rw [exec_ema_running hq hc hop harr]
  refine ⟨fun h => congrArg Host.Outcome.next (emaStep_errLength h p arr q), fun h run hzero hrun => ?_⟩
  have hstep := emaStep_outputs h p arr q
  have houts : emaOutputs alpha (s.seriesPart p q arr n) = (List.range' 1 (n - 1)).map run :=
    emaOutputs_seriesPart hzero hrun n
  refine ⟨_, congrArg Host.Outcome.next hstep, fun k => ?_⟩
  have hin : 1 ≤ k ∧ k < 1 + (n - 1) ↔ 1 ≤ k ∧ k < n := by omega
  calc ((q.series arr).writeFrom 1 (settleAll s.draws (emaOutputs alpha (s.seriesPart p q arr n)))).read k
    _ = if 1 ≤ k ∧ k < 1 + (n - 1) then some (F64.settle (s.draws + (k - 1)) (run k)) else (q.series arr).read k := by
      rw [houts, Memory.read_writeFrom_settleAll]
    _ = _ := if_congr hin rfl rfl

/-! ### SMA -/

/-- The half width is that of the width forced to at least 1 and odd (R283). -/
theorem smaHalf_eq {w : Int} {half : Nat} (hlow : w < 1 → half = 0) (hodd : 1 ≤ w → w % 2 = 1 → 2 * (half : Int) + 1 = w)
    (heven : 1 ≤ w → w % 2 = 0 → 2 * (half : Int) + 1 = w + 1) : smaHalf w = half := by
  rw [smaHalf]
  by_cases hw : w < 1
  · simp [hw, hlow hw]
  · rw [if_neg hw]
    split_ifs <;> omega

theorem seriesPart_window (s : State) (p : Nat) (q : Port) (arr : SeriesArr) {n lo hi : Nat} (hlo : lo ≤ hi)
    (hhi : hi < n) :
    ((s.seriesPart p q arr n).drop lo).take (hi + 1 - lo) =
      s.seriesEntry p q arr lo :: (List.range' (lo + 1) (hi - lo)).map (s.seriesEntry p q arr) := by
  have hcount : hi + 1 - lo = hi - lo + 1 := by omega
  rw [seriesPart_eq_range', ← List.map_drop, ← List.map_take, List.drop_range',
    List.take_range'_of_length_ge (by omega), hcount, Nat.mul_one, Nat.zero_add, List.range'_succ, List.map_cons]

/-- An output of SMA is the mean of its window, summed from left to right (R283). -/
theorem smaOutput_seriesPart (s : State) (p : Nat) (q : Port) (arr : SeriesArr) (half : Nat) {n k : Nat} (hk : k < n) :
    let old := s.seriesEntry p q arr
    let lo := k - half
    let hi := min (n - 1) (k + half)
    smaOutput (s.seriesPart p q arr n) half k =
      F64.div (((List.range' (lo + 1) (hi - lo)).map old).foldl F64.add (old lo)) (F64.ofNat (hi - lo + 1)) := by
  intro old lo hi
  have hwindow : ((s.seriesPart p q arr n).drop lo).take (hi + 1 - lo) = old lo :: _ :=
    seriesPart_window s p q arr (by omega) (by omega)
  simp only [smaOutput, seriesPart_length, lo, hi] at hwindow ⊢
  rw [hwindow]

theorem smaOutputs_seriesPart (s : State) (p : Nat) (q : Port) (arr : SeriesArr) (half n : Nat) :
    smaOutputs (s.seriesPart p q arr n) half = (List.range' 0 n).map (smaOutput (s.seriesPart p q arr n) half) := by
  rw [smaOutputs, seriesPart_length, List.range_eq_range']

theorem exec_sma_running {p : Nat} {arr : SeriesArr} {s : State} {q : Port} {c : Command} (hq : s.ports[p]? = some q)
    (hc : q.cmd = some c) (hop : c.op = 0x11) (harr : c.arr = arrField arr) :
    exec (.sma p arr) s = .next (smaStep p arr s q c) :=
  portCommand_running hq hc hop harr

theorem smaStep_errLength {s : State} {c : Command} (h : s.params.maxBins < c.a1.toNat) (p : Nat) (arr : SeriesArr)
    (q : Port) : smaStep p arr s q c = s.setPort p (q.fail .errLength) :=
  if_pos h

theorem smaStep_identity {s : State} {c : Command} (h : c.a1.toNat ≤ s.params.maxBins) (hhalf : smaHalf c.a0.toInt = 0)
    (p : Nat) (arr : SeriesArr) (q : Port) :
    smaStep p arr s q c = s.setPort p (q.storeSeries arr 0 (s.seriesPart p q arr c.a1.toNat)).complete :=
  (if_neg (Nat.not_lt_of_le h)).trans (if_pos hhalf)

theorem smaStep_outputs {s : State} {c : Command} (h : c.a1.toNat ≤ s.params.maxBins) (hhalf : smaHalf c.a0.toInt ≠ 0)
    (p : Nat) (arr : SeriesArr) (q : Port) :
    let outs := smaOutputs (s.seriesPart p q arr c.a1.toNat) (smaHalf c.a0.toInt)
    smaStep p arr s q c = { s with draws := s.draws + c.a1.toNat }.setPort p
      (q.storeSeries arr 0 (settleAll s.draws outs)).complete := by
  intro outs
  have hlen : outs.length = c.a1.toNat := by rw [smaOutputs_length, seriesPart_length]
  conv_rhs => rw [← hlen]
  exact (if_neg (Nat.not_lt_of_le h)).trans (if_neg hhalf)

/-- Settles O30, by whether the forced width is 1. -/
theorem smaAveragesTheClippedWindow : Obligations.SmaAveragesTheClippedWindow := by
  intro p arr s q c hq hc hop harr n w old
  rw [exec_sma_running hq hc hop harr]
  refine ⟨fun h => congrArg Host.Outcome.next (smaStep_errLength h p arr q), fun h half hlow hodd heven => ?_⟩
  obtain rfl : smaHalf w = half := smaHalf_eq hlow hodd heven
  by_cases hhalf : smaHalf w = 0
  · simp only [if_pos hhalf]
    refine ⟨_, congrArg Host.Outcome.next (smaStep_identity h hhalf p arr q), fun k => ?_⟩
    rw [seriesPart_eq_range', Memory.read_writeFrom_map_range']
    simp [n, old]
  · simp only [if_neg hhalf]
    refine ⟨_, congrArg Host.Outcome.next (smaStep_outputs h hhalf p arr q), fun k => ?_⟩
    rw [smaOutputs_seriesPart, Memory.read_writeFrom_settleAll]
    refine ite_congr (by simp [n]) (fun hk => ?_) (fun _ => rfl)
    rw [smaOutput_seriesPart s p q arr _ hk]
    rfl

/-! ### HPF -/

/-- The loop of HPF computes the solution of its recurrence (R286). -/
theorem hpfLoop_eq_run {alpha : F64} {old y : Nat → F64}
    (hy : ∀ i, y (i + 1) = F64.mul alpha (F64.sub (F64.add (y i) (old (i + 1))) (old i))) (k n : Nat) :
    hpfLoop alpha (y k) (old k) ((List.range' (k + 1) n).map old) = (List.range' (k + 1) n).map y := by
  induction n generalizing k with
  | zero => rfl
  | succ n ih => simp only [List.range'_succ, List.map_cons, hpfLoop, ← hy k, ih]

theorem hpfFirst_eq {y0 : HpfY0} {v y : F64} (hseries : y0 = .series0 → y = v) (hzero : y0 = .zero → y = 0) :
    hpfFirst y0 v = y := by
  cases y0 with
  | series0 => exact (hseries rfl).symm
  | zero => exact (hzero rfl).symm

theorem exec_hpf_running {p : Nat} {arr : SeriesArr} {s : State} {q : Port} {c : Command} (hq : s.ports[p]? = some q)
    (hc : q.cmd = some c) (hop : c.op = 0x12) (harr : c.arr = arrField arr) :
    exec (.hpf p arr) s = .next (hpfStep p arr s q c) := by
  have hbusy (q' : Port) (hq' : s.port? p = some q') (hidle : q'.cmd = none) : s.params.hpfPresent = true := by
    obtain rfl : q = q' := Option.some.inj (hq.symm.trans hq')
    rw [hc] at hidle
    cases hidle
  exact (execHpf_eq_portCommand hbusy).trans (portCommand_running hq hc hop harr)

theorem hpfStep_errLength {s : State} {c : Command} (h : s.params.maxBins < c.a2.toNat) (p : Nat) (arr : SeriesArr)
    (q : Port) : hpfStep p arr s q c = s.setPort p (q.fail .errLength) :=
  if_pos h

theorem hpfStep_passThrough {s : State} {c : Command} (h : c.a2.toNat ≤ s.params.maxBins)
    (hpass : F64.le c.a1 0 = true ∨ c.a2.toNat = 0) (p : Nat) (arr : SeriesArr) (q : Port) :
    hpfStep p arr s q c = s.setPort p q.complete := by
  refine (if_neg (Nat.not_lt_of_le h)).trans ?_
  by_cases hfc : F64.le c.a1 0 = true
  · exact if_pos hfc
  · have hn : c.a2.toNat = 0 := hpass.resolve_left hfc
    refine (if_neg hfc).trans ?_
    rw [operandU64, hn]
    rfl

theorem hpfStep_outputs {s : State} {c : Command} {n : Nat} (h : c.a2.toNat ≤ s.params.maxBins)
    (hfc : F64.le c.a1 0 = false) (hn : c.a2.toNat = n + 1) (p : Nat) (arr : SeriesArr) (q : Port) :
    let old := s.seriesEntry p q arr
    let y := hpfFirst s.params.hpfY0 (old 0)
    let outs := hpfLoop (hpfAlpha c.a0 c.a1) y (old 0) ((List.range' 1 n).map old)
    hpfStep p arr s q c = { s with draws := s.draws + n }.setPort p
      (q.storeSeries arr 0 (y :: settleAll s.draws outs)).complete := by
  intro old y outs
  have hlen : outs.length = n := by simp only [outs, hpfLoop_length, List.length_map, List.length_range']
  conv_rhs => rw [← hlen]
  refine (if_neg (Nat.not_lt_of_le h)).trans ((if_neg (Bool.eq_false_iff.1 hfc)).trans ?_)
  rw [operandU64, hn, seriesPart_succ]
  rfl

/-- Settles O31: entry 0 is the initial output, and the loop's outputs are the recurrence's values after it. -/
theorem highPassFollowsItsRecurrence : Obligations.HighPassFollowsItsRecurrence := by
  intro p arr s q c hq hc hop harr n old tau alpha
  rw [exec_hpf_running hq hc hop harr]
  refine ⟨fun h => congrArg Host.Outcome.next (hpfStep_errLength h p arr q),
    fun h hpass => congrArg Host.Outcome.next (hpfStep_passThrough h hpass p arr q),
    fun h hfc hpos y hseries hzero hy => ?_⟩
  obtain ⟨r, hr⟩ : ∃ r, n = r + 1 := ⟨n - 1, by omega⟩
  have hfirst : hpfFirst s.params.hpfY0 (old 0) = y 0 := hpfFirst_eq hseries hzero
  have houts : hpfLoop alpha (y 0) (old 0) ((List.range' 1 r).map old) = (List.range' 1 r).map y := hpfLoop_eq_run hy 0 r
  have hstep : hpfStep p arr s q c = { s with draws := s.draws + r }.setPort p
      (q.storeSeries arr 0 (y 0 :: settleAll s.draws ((List.range' 1 r).map y))).complete := by
    rw [← houts, ← hfirst]
    exact hpfStep_outputs h hfc hr p arr q
  rw [hr, Nat.add_sub_cancel]
  refine ⟨_, congrArg Host.Outcome.next hstep, fun k => ?_⟩
  rw [Memory.writeFrom, Memory.read_writeFrom_settleAll]
  by_cases hk : k = 0
  · simp [hk]
  · have hin : 1 ≤ k ∧ k < 1 + r ↔ k < r + 1 := by omega
    rw [if_neg hk, Memory.read_write_other _ _ _ _ hk]
    exact if_congr hin rfl rfl

end Sys2Proof.Machine
end

section
/-!
Reset from any state: what the scheduled step answers, and the values of every element after it (R330).
-/
namespace Sys2Proof.Machine

/-- No series array of a port after reset has an entry listed (R60, log 9). -/
@[simp] theorem Port.reset_series (arr : SeriesArr) : Port.reset.series arr = [] := by
  cases arr <;> rfl

/-- A port after reset reads PSTATUS 0: idle, with no result (R54). -/
@[simp] theorem Port.reset_statusWord : Port.reset.statusWord = 0 := by decide

/-- With IRQ_ENABLE at 0 the notification is masked (R52, R331). -/
theorem State.notify_masked {s : State} (h : s.irqEnable = 0) : s.notify = false := by
  simp [State.notify, h]

theorem State.applyReset_ports (s : State) : s.applyReset.ports = List.replicate s.params.numReaders Port.reset := rfl

/-- A scheduled reset is performed whatever the agents are doing, on the rest of the schedule (R330). -/
theorem step_reset {s : State} {rest : List Action} (hs : s.schedule = .reset :: rest) :
    step s = .next { s with schedule := rest }.applyReset :=
  step_of_fetch_done hs rfl

/-- Settles O57: the reset step answers the reset state over the same parameters, whose ports are all reset ports. -/
theorem resetSetsEveryElement : Obligations.ResetSetsEveryElement := by
  intro s rest hs
  refine ⟨_, step_reset hs, rfl, rfl, rfl, rfl, rfl, rfl, rfl, rfl, rfl, Memory.read_nil, rfl, rfl, rfl, rfl, rfl, rfl,
    State.notify_masked rfl, List.length_replicate, ?ports, rfl, rfl, rfl⟩
  case ports =>
    intro q hq
    rw [State.applyReset_ports] at hq
    obtain rfl : q = Port.reset := List.eq_of_mem_replicate hq
    refine ⟨Port.reset_statusWord, rfl, rfl, rfl, rfl, rfl, rfl, rfl, rfl, fun arr k => ?_⟩
    rw [Port.reset_series, Memory.read_nil]

end Sys2Proof.Machine
end
